-- ==== Sys2Proof/Word.lean ====
section
/-! DEFINITION. The word types of the block (00_scope.md R16, R19, R20, R100). -/

namespace Sys2Proof

/-- A sample, magnitude or response word: 32 bits, bit 0 least significant (R16, R19). -/
abbrev Word32 := BitVec 32

/-- A command word: 64 bits, the only format (30_encoding.md R100). -/
abbrev Command := BitVec 64

/-- A pixel: 24 bits, red in [23:16], green in [15:8], blue in [7:0] (R20). -/
abbrev Pixel := BitVec 24

/-- `ZERO` of R19. -/
abbrev zeroWord : Word32 := 0

end Sys2Proof
end

