-- ==== Sys2Proof/Syntax.lean ====
section
/-! DEFINITION. Syntax: the three ports, the eight assigned opcodes and the eight commands
(00_scope.md R22, R23; 30_encoding.md R102, R104; opcode_table.json). -/

namespace Sys2Proof

/-- The three command ports (00_scope.md R22, R23). -/
inductive Port where
  /-- Port P: the audio-rate producer. -/
  | producer
  /-- Port C: the display-rate tick caller. -/
  | consumer
  /-- Port R: the surface reader. -/
  | reader
  deriving DecidableEq, Repr, Inhabited

/-- The eight assigned opcodes, in the order of R104. -/
inductive Opcode where
  | nop
  | push
  | tick
  | rdTbuf
  | rdPixel
  | rdSurface
  | rdStatus
  | rdConfig
  deriving DecidableEq, Repr

/-- One constructor for each row of opcode_table.json; the operands are the fields of ARG that R102
names, each read as an unsigned integer (R103). -/
inductive Instr where
  /-- `NOP` (45_readout.md R245). -/
  | nop
  /-- `PUSH SAMPLE` (40_fifo.md R140). -/
  | push (sample : Word32)
  /-- `TICK` (44_tick.md R220). -/
  | tick
  /-- `RD_TBUF TIDX` (45_readout.md R242). -/
  | rdTbuf (tidx : BitVec 16)
  /-- `RD_PIXEL X, Y` (45_readout.md R240). -/
  | rdPixel (x y : BitVec 16)
  /-- `RD_SURFACE` (45_readout.md R241). -/
  | rdSurface
  /-- `RD_STATUS` (45_readout.md R243). -/
  | rdStatus
  /-- `RD_CONFIG SEL` (45_readout.md R244). -/
  | rdConfig (sel : BitVec 8)
  deriving DecidableEq, Repr

/-- The opcode of a command. -/
def Instr.opcode : Instr → Opcode
  | .nop => .nop
  | .push _ => .push
  | .tick => .tick
  | .rdTbuf _ => .rdTbuf
  | .rdPixel _ _ => .rdPixel
  | .rdSurface => .rdSurface
  | .rdStatus => .rdStatus
  | .rdConfig _ => .rdConfig

end Sys2Proof
end

