-- ==== Sys2Proof/Decode.lean ====
section
/-! DEFINITION. Decoding a command word and encoding a command (30_encoding.md R100 to R104, R107,
R108). The port check of R107 stands between the opcode check and the reserved-bits check; it needs
the issuing port and is made in Machine/Ops.lean, so a rejected word keeps its opcode here. -/

namespace Sys2Proof

/-- Why a word decodes to no command. -/
inductive DecodeReject where
  /-- OPC is none of the eight values of R104. -/
  | unknownOpcode
  /-- OPC is assigned, and RSV or a "must be 0" bit of ARG is 1 (R102, R108). -/
  | reservedBits (op : Opcode)
  deriving DecidableEq, Repr

/-- OPC, bits [63:56] (R101). -/
def opcField (w : Command) : BitVec 8 := w.extractLsb' 56 8

/-- RSV, bits [55:32] (R101). -/
def rsvField (w : Command) : BitVec 24 := w.extractLsb' 32 24

/-- ARG, bits [31:0] (R101). -/
def argField (w : Command) : Word32 := w.extractLsb' 0 32

/-- ARG[31:16]: `Y`, or "must be 0" (R102). -/
def argHigh (arg : Word32) : BitVec 16 := arg.extractLsb' 16 16

/-- ARG[15:0]: `TIDX` or `X` (R102). -/
def argLow (arg : Word32) : BitVec 16 := arg.extractLsb' 0 16

/-- ARG[31:8], "must be 0" in `RD_CONFIG` (R102). -/
def argAboveSel (arg : Word32) : BitVec 24 := arg.extractLsb' 8 24

/-- ARG[7:0]: `SEL` (R102). -/
def argSel (arg : Word32) : BitVec 8 := arg.extractLsb' 0 8

/-- The opcode map of R104. -/
def opcodeOfByte (b : BitVec 8) : Option Opcode :=
  if b = 0x00 then some .nop
  else if b = 0x01 then some .push
  else if b = 0x10 then some .tick
  else if b = 0x11 then some .rdTbuf
  else if b = 0x20 then some .rdPixel
  else if b = 0x21 then some .rdSurface
  else if b = 0x30 then some .rdStatus
  else if b = 0x31 then some .rdConfig
  else none

/-- The operands of an assigned opcode, or `none` where a "must be 0" bit of ARG is 1 (R102). -/
def decodeArg (op : Opcode) (arg : Word32) : Option Instr :=
  match op with
  | .nop => if arg = 0 then some .nop else none
  | .push => some (.push arg)
  | .tick => if arg = 0 then some .tick else none
  | .rdTbuf => if argHigh arg = 0 then some (.rdTbuf (argLow arg)) else none
  | .rdPixel => some (.rdPixel (argLow arg) (argHigh arg))
  | .rdSurface => if arg = 0 then some .rdSurface else none
  | .rdStatus => if arg = 0 then some .rdStatus else none
  | .rdConfig => if argAboveSel arg = 0 then some (.rdConfig (argSel arg)) else none

/-- The command a word stands for, or why it stands for none (R107, R108). -/
def decode (w : Command) : Except DecodeReject Instr :=
  match opcodeOfByte (opcField w) with
  | none => .error .unknownOpcode
  | some op =>
    if rsvField w = 0 then
      match decodeArg op (argField w) with
      | some i => .ok i
      | none => .error (.reservedBits op)
    else .error (.reservedBits op)

/-- OPC of an assigned opcode (R104). -/
def Opcode.byte : Opcode → BitVec 8
  | .nop => 0x00
  | .push => 0x01
  | .tick => 0x10
  | .rdTbuf => 0x11
  | .rdPixel => 0x20
  | .rdSurface => 0x21
  | .rdStatus => 0x30
  | .rdConfig => 0x31

/-- ARG of a command (R102). -/
def Instr.arg : Instr → Word32
  | .nop => 0
  | .push sample => sample
  | .tick => 0
  | .rdTbuf tidx => (0 : BitVec 16) ++ tidx
  | .rdPixel x y => y ++ x
  | .rdSurface => 0
  | .rdStatus => 0
  | .rdConfig sel => (0 : BitVec 24) ++ sel

/-- The command word `{OPC, 24'h000000, ARG}` (R101, R110). -/
def encode (i : Instr) : Command := i.opcode.byte ++ (0 : BitVec 24) ++ i.arg

/-- The command that a table row's bits decode to. A command is one word, so the row's bit numbers are
the word's own; bits from `nbits` up are 0, and a number that does not fit 64 bits is no command. -/
def decodeTableWord (nbits w : Nat) : Option Instr :=
  if w % 2 ^ nbits < 2 ^ 64 then
    match decode (BitVec.ofNat 64 (w % 2 ^ nbits)) with
    | .ok i => some i
    | .error _ => none
  else none

end Sys2Proof
end

