-- ==== Sys2Proof/Config.lean ====
section
/-! DEFINITION. The construction parameters of the block (00_scope.md R7 to R15, 10_state.md R42, R51)
and the values the spec leaves free. A configuration is plain data, legal by its type: a value outside
the ranges of R7 to R10 cannot be built, and `Config.ofParams` is where such a value is refused
(93_implementation_defined.md U9, U17). The free values are opaque constants with no body. -/

namespace Sys2Proof

/-- Parameter `X_MODE` (R10). -/
inductive XMode where
  /-- Value 0, the default: `floor(i * W / B)`. -/
  | realFloor
  /-- Value 1: `(i div B) * W`. -/
  | intDiv
  deriving DecidableEq, Repr

/-- Which magnitude-to-width policy `MAGMAP` is (R12). -/
inductive MagPolicy where
  /-- The default of 42_render.md R183. -/
  | truncate
  /-- Any other pluggable policy: an uninterpreted function into `[0, W]`. -/
  | custom
  deriving DecidableEq, Repr

/-- Which transform `T` the block was built with (R11, 41_transform.md R161, R164, R165). -/
inductive Engine where
  /-- A transform library of which only R161 is known. -/
  | library
  /-- The reference configuration `T_DFT` (R164). -/
  | referenceDft
  /-- The test stub `T_ID` (R165), no legal engine for general inputs. -/
  | testIdentity
  deriving DecidableEq, Repr

/-- The construction parameters. Each bounded number is stored less its least legal value, so that
every term of this type is a legal configuration. -/
structure Config where
  /-- `N = 2 ^ blockLog` (R7). -/
  blockLog : Fin 16
  /-- `W - 1` (R8). -/
  widthM1 : Fin 65536
  /-- `H - 1` (R8). -/
  heightM1 : Fin 65536
  /-- `B - 1` (R9). -/
  divisorM1 : Fin 4294967295
  /-- `X_MODE` (R10). -/
  xMode : XMode
  /-- `MAGMAP` (R12). -/
  magPolicy : MagPolicy
  /-- `T` (R11). -/
  engine : Engine
  /-- `TICK_MAX_CYCLES` (R14). -/
  tickMaxCycles : Nat
  deriving DecidableEq, Repr

namespace Config

/-- Block size `N` (R7). -/
def N (c : Config) : Nat := 2 ^ c.blockLog.val

/-- Surface width `W` (R8). -/
def W (c : Config) : Nat := c.widthM1.val + 1

/-- Surface height `H` (R8). -/
def H (c : Config) : Nat := c.heightM1.val + 1

/-- Divisor `B` (R9). -/
def B (c : Config) : Nat := c.divisorM1.val + 1

/-- The number that stands for `X_MODE` in R10 and R42. -/
def xModeCode (c : Config) : Nat :=
  match c.xMode with
  | .realFloor => 0
  | .intDiv => 1

/-- DESIGN CHOICE (log entry 2), UNSAFE to rely on a value: the divisor `B` of the block that
`State.reset` describes, less 1. The spec gives no value (R9, N4), so none is fixed. -/
opaque openDivisorM1 : Fin 4294967295

/-- DESIGN CHOICE (log entry 2): `TICK_MAX_CYCLES` of the block that `State.reset` describes (R14);
no value is fixed. -/
opaque openTickMaxCycles : Nat

/-- Free value (log entry 5): output word `j` of the transform library for a block size and the `2N`
input words (R11, U2). -/
opaque engineWord (blockSize : Nat) (input : List Word32) (j : Nat) : Word32

/-- Free value (log entry 5): word `j` of what draw number `draw` finds the transform to return for input
words of which one is no finite value (U6: any value, a fresh draw for each observation). -/
opaque freeTransformWord (draw : Nat) (input : List Word32) (j : Nat) : Word32

/-- Free value (log entry 7): a pluggable `MAGMAP` before its result is held to `[0, W]` (R12, U11). -/
opaque customWidth (imageWidth : Nat) (magnitude : Word32) : Nat

/-- Free value (log entry 4): the word that draw number `draw` reads at index `j` of a Fifo or
Transform Buffer entry nothing has written since reset (D7, U3, U4). -/
opaque freeWord (draw j : Nat) : Word32

/-- Free value (log entry 4): the pixel that draw number `draw` reads at linear index `j` of a surface
no render has painted since reset (D7, U5). -/
opaque freePixel (draw j : Nat) : Pixel

/-- Free value (log entry 3): the port the block serves at draw number `draw` when more than one has
a command waiting (20_memory.md R81, U8). -/
opaque grant (draw : Nat) : Port

/-- The configuration of `State.reset`: the reference values of R7, R8, R10 and R183, an
uninterpreted transform, and no fixed `B` (log entry 2). -/
def reference : Config where
  blockLog := 7
  widthM1 := 511
  heightM1 := 511
  divisorM1 := openDivisorM1
  xMode := .realFloor
  magPolicy := .truncate
  engine := .library
  tickMaxCycles := openTickMaxCycles

/-- Why a configuration is refused (U9, U17; R7 to R10). Raised by `Config.ofParams` only; safe: no
machine with such parameters is described. -/
inductive Refused where
  /-- `N` is no power of two in `[1, 2^15]`. -/
  | blockSize
  /-- `W` is outside `[1, 65536]`. -/
  | width
  /-- `H` is outside `[1, 65536]`. -/
  | height
  /-- `B` is outside `[1, 2^32 - 1]`. -/
  | divisor
  /-- `X_MODE` is neither 0 nor 1. -/
  | xMode
  deriving DecidableEq, Repr

/-- A configuration from the numbers a caller names, or the reason it is refused. -/
def ofParams (n w h b x : Nat) (mag : MagPolicy) (eng : Engine) (tickMax : Nat) :
    Except Refused Config :=
  match (List.finRange 16).find? (fun k => 2 ^ k.val == n) with
  | none => .error .blockSize
  | some k =>
    if hw : 1 ≤ w ∧ w ≤ 65536 then
      if hh : 1 ≤ h ∧ h ≤ 65536 then
        if hb : 1 ≤ b ∧ b ≤ 4294967295 then
          if x ≤ 1 then
            .ok { blockLog := k
                  widthM1 := ⟨w - 1, by omega⟩
                  heightM1 := ⟨h - 1, by omega⟩
                  divisorM1 := ⟨b - 1, by omega⟩
                  xMode := if x = 0 then .realFloor else .intDiv
                  magPolicy := mag
                  engine := eng
                  tickMaxCycles := tickMax }
          else .error .xMode
        else .error .divisor
      else .error .height
    else .error .width

end Config

end Sys2Proof
end

