-- ==== Sys2Proof/Machine/State.lean ====
section
/-! DEFINITION. The state of the block as plain data (10_state.md R30, R33 to R40, R52), the reasons a
step can stop, and the state after reset (R45 to R50, 70_reset_and_hazards.md R300). -/

namespace Sys2Proof.Machine

/-- The written entries of one index space: (index, word) pairs, indices strictly rising. An entry that
is not listed has not been written since reset and holds no fixed word (10_state.md R48 to R50). -/
abbrev Cells (w : Nat) := List (Nat × BitVec w)

/-- The three index spaces of 20_memory.md R70. -/
structure Memory where
  /-- `FIFO`, indices `0..N-1`. -/
  fifo : Cells 32
  /-- `TBUF`, indices `0..2N-1`. -/
  tbuf : Cells 32
  /-- `SURF`, linear index `y*W + x`. -/
  surf : Cells 24
  deriving DecidableEq, Repr

/-- One thing for each of the three ports. -/
structure PerPort (α : Type) where
  producer : α
  consumer : α
  reader : α
  deriving DecidableEq, Repr

/-- The state of the block between two commands. -/
structure State where
  /-- The construction parameters: no state of the block (R51), held here because a step takes nothing
  but the state (log entry 1); no step changes them. -/
  cfg : Config
  /-- `fifo`, `tbuf` and `surf` (R34, R35, R36). -/
  mem : Memory
  /-- The Fifo write cursor (R33). -/
  idx : BitVec 16
  /-- The Readiness Flag (R37). -/
  ready : Bool
  /-- 1 once a `RENDER` has completed since reset (R38). -/
  rendered : Bool
  /-- The sticky fault bit (R39). -/
  err : Bool
  /-- The error code of the first fault (R40). -/
  ecode : BitVec 4
  /-- The commands accepted on each port and not yet executed, oldest first (R52). -/
  cmds : PerPort (List Command)
  /-- The responses of each port not yet delivered, oldest first (R52). -/
  resps : PerPort (List Word32)
  /-- The reset input (70_reset_and_hazards.md R300), sampled by the next step. -/
  rst : Bool
  /-- The model's own field (log entry 3): the port served next; while a command executes, its port. -/
  port : Port
  /-- The model's own field (log entry 4): the number of free values drawn, advanced by every step
  that executes a command or a reset. -/
  draws : Nat
  deriving DecidableEq, Repr

/-- Why the machine stops with a fault. -/
inductive Fault where
  /-- Raised by `PUSH` when the cursor is above `N`, so that its write would leave the Fifo: R71 says
  that no such index reaches a primitive, and `State.Inv` rules the state out. Safe (log entry 9). -/
  | fifoIndexOutOfRange
  deriving DecidableEq, Repr

/-- Why the model gives an instruction no meaning. -/
inductive Refusal where
  /-- Raised by an arm of `exec` with no meaning yet; no arm raises it now. Safe. -/
  | notModelled (mnemonic : String)
  deriving DecidableEq, Repr

/-- Storage with nothing written: the reset contents of R48 to R50. -/
def Memory.unwritten : Memory := { fifo := [], tbuf := [], surf := [] }

/-- The reset values (R45 to R50, R300, R301) of a block built with `c`; `d` is the number of free
values drawn so far, which no reset takes back. -/
def State.resetWith (c : Config) (d : Nat) : State where
  cfg := c
  mem := Memory.unwritten
  idx := 0
  ready := false
  rendered := false
  err := false
  ecode := 0
  cmds := { producer := [], consumer := [], reader := [] }
  resps := { producer := [], consumer := [], reader := [] }
  rst := false
  port := Config.grant d
  draws := d

/-- The machine right after reset, built with the reference parameters (log entry 2). -/
def State.reset : State := State.resetWith Config.reference 0

end Sys2Proof.Machine
end

