-- ==== Sys2Proof/WellFormed.lean ====
section
/-! DEFINITION. Which commands are well formed: legal on a port (30_encoding.md R105, the "ports" of
opcode_table.json) and in range for a configuration (R103, R107). A command that is not well formed
still has a word and still executes: it faults (30_encoding.md R110). -/

namespace Sys2Proof

/-- The ports a command is legal on, as the opcode table lists them (R105). -/
def Opcode.ports : Opcode → List Port
  | .nop => [.producer, .consumer, .reader]
  | .push => [.producer]
  | .tick => [.consumer]
  | .rdTbuf => [.consumer]
  | .rdPixel => [.reader]
  | .rdSurface => [.reader]
  | .rdStatus => [.producer, .consumer, .reader]
  | .rdConfig => [.producer, .consumer, .reader]

/-- The operands are in range: `TIDX < 2N`, `X < W` and `Y < H`, `SEL <= 5` (R103). -/
def Instr.inRange (c : Config) : Instr → Bool
  | .nop => true
  | .push _ => true
  | .tick => true
  | .rdTbuf tidx => decide (tidx.toNat < 2 * c.N)
  | .rdPixel x y => decide (x.toNat < c.W) && decide (y.toNat < c.H)
  | .rdSurface => true
  | .rdStatus => true
  | .rdConfig sel => decide (sel.toNat ≤ 5)

/-- A command that executes without a fault when issued on port `p` of a block built with `c`. -/
def Instr.wellFormed (p : Port) (c : Config) (i : Instr) : Bool :=
  i.opcode.ports.contains p && i.inRange c

end Sys2Proof
end

