-- ==== Sys2Proof/Machine/Operands.lean ====
section
/-! DEFINITION. The operand forms and the checks made on them: range checks (30_encoding.md R103,
R107), port rights (R105), response framing (R106), the surface's linear index (20_memory.md R70), the
CONFIG view (10_state.md R42) and the error codes (60_exceptions.md R271). -/

namespace Sys2Proof.Machine

/-- The faults of a command (R271). -/
inductive FaultCode where
  | unknownOpcode
  | wrongPort
  | reservedBits
  | pixelRange
  | tbufRange
  | configRange
  deriving DecidableEq, Repr

/-- The value a fault leaves in `ecode` (R271). -/
def FaultCode.code : FaultCode → BitVec 4
  | .unknownOpcode => 1
  | .wrongPort => 2
  | .reservedBits => 3
  | .pixelRange => 4
  | .tbufRange => 5
  | .configRange => 6

/-- Port rights (R105). -/
def portAllows (p : Port) (op : Opcode) : Bool :=
  match op with
  | .nop | .rdStatus | .rdConfig => true
  | .push => p == .producer
  | .tick | .rdTbuf => p == .consumer
  | .rdPixel | .rdSurface => p == .reader

/-- The number of response words of an assigned opcode, whatever else happens (R106). -/
def frameWords (c : Config) (op : Opcode) : Nat :=
  match op with
  | .nop | .push | .tick => 0
  | .rdTbuf | .rdPixel | .rdStatus | .rdConfig => 1
  | .rdSurface => c.W * c.H

/-- The range check of R107 on `TIDX`. -/
def tbufIndexFault (c : Config) (tidx : BitVec 16) : Option FaultCode :=
  if tidx.toNat ≥ 2 * c.N then some .tbufRange else none

/-- The range check of R107 on `X` and `Y`. -/
def pixelFault (c : Config) (x y : BitVec 16) : Option FaultCode :=
  if x.toNat ≥ c.W || y.toNat ≥ c.H then some .pixelRange else none

/-- The range check of R107 on `SEL`. -/
def selectorFault (sel : BitVec 8) : Option FaultCode :=
  if sel.toNat > 5 then some .configRange else none

/-- The range check of R107 for a decoded command. -/
def rangeFault (c : Config) (i : Instr) : Option FaultCode :=
  match i with
  | .nop | .push _ | .tick | .rdSurface | .rdStatus => none
  | .rdTbuf tidx => tbufIndexFault c tidx
  | .rdPixel x y => pixelFault c x y
  | .rdConfig sel => selectorFault sel

/-- The fault a decoded command raises on port `p`, if any. The reserved-bits check, between the two
made here, has passed for a command that decoded (R107, 60_exceptions.md R274). -/
def commandFault (p : Port) (c : Config) (i : Instr) : Option FaultCode :=
  if portAllows p i.opcode then rangeFault c i else some .wrongPort

/-- The linear index of the pixel at column `x` and row `y` (20_memory.md R70). -/
def pixelIndex (c : Config) (x y : Nat) : Nat := y * c.W + x

/-- The word `RD_CONFIG` answers for a selector in range (R42, 45_readout.md R244). -/
def configWord (c : Config) (sel : BitVec 8) : Word32 :=
  match sel.toNat with
  | 0 => BitVec.ofNat 32 c.N
  | 1 => BitVec.ofNat 32 c.W
  | 2 => BitVec.ofNat 32 c.H
  | 3 => BitVec.ofNat 32 c.B
  | 4 => BitVec.ofNat 32 c.xModeCode
  | 5 => 1
  | _ => 0

end Sys2Proof.Machine
end

