-- ==== Sys2Proof/Machine/Ops.lean ====
section
/-! DEFINITION. The shared operations over storage, ports and faults: `MemRead` and `MemWrite`
(20_memory.md R71), `respond` and `raise Fault` (00_scope.md R18, 60_exceptions.md R272), the halted
state (R273), and the checks every command passes first (30_encoding.md R107). -/

namespace Sys2Proof.Machine

/-- The word written at index `j`, if any. -/
def cellAt {w : Nat} (m : Cells w) (j : Nat) : Option (BitVec w) :=
  match m with
  | [] => none
  | (a, v) :: rest => if a = j then some v else cellAt rest j

/-- The cells after writing `v` at index `j`; rising indices stay rising. -/
def cellWrite {w : Nat} (m : Cells w) (j : Nat) (v : BitVec w) : Cells w :=
  match m with
  | [] => [(j, v)]
  | (a, u) :: rest =>
    if j < a then (j, v) :: (a, u) :: rest
    else if j = a then (j, v) :: rest
    else (a, u) :: cellWrite rest j v

/-- The cells of a space of `n` words after every one of them is written, word `j` with `f j`. -/
def fillCells {w : Nat} (n : Nat) (f : Nat → BitVec w) : Cells w :=
  (List.range n).map (fun j => (j, f j))

/-- The indices of the cells rise strictly. -/
def cellsRising {w : Nat} (m : Cells w) : Bool :=
  match m with
  | [] => true
  | (a, _) :: rest => rest.all (fun e => decide (a < e.1)) && cellsRising rest

/-- Every listed index is below `n`. -/
def cellsBelow {w : Nat} (n : Nat) (m : Cells w) : Bool := m.all (fun e => decide (e.1 < n))

/-- The canonical form of storage: in each space the listed indices rise strictly and lie in the space
(20_memory.md R70). An unlisted entry holds no fixed word, so no entry equals an unlisted one. -/
def Memory.wf (c : Config) (m : Memory) : Bool :=
  cellsRising m.fifo && cellsBelow c.N m.fifo &&
  (cellsRising m.tbuf && cellsBelow (2 * c.N) m.tbuf) &&
  (cellsRising m.surf && cellsBelow (c.W * c.H) m.surf)

/-- `MemRead(FIFO, j)` (R71); a free value where nothing is written yet (R48). -/
def readFifo (s : State) (j : Nat) : Word32 :=
  (cellAt s.mem.fifo j).getD (Config.freeWord s.draws j)

/-- `MemRead(TBUF, j)` (R71); a free value where nothing is written yet (R49). -/
def readTbuf (s : State) (j : Nat) : Word32 :=
  (cellAt s.mem.tbuf j).getD (Config.freeWord s.draws j)

/-- `MemRead(SURF, j)` (R71) at a linear index; a free value where nothing is written yet (R50, R247). -/
def readSurf (s : State) (j : Nat) : Pixel :=
  (cellAt s.mem.surf j).getD (Config.freePixel s.draws j)

/-- `MemWrite(FIFO, j, v)` (R71). -/
def writeFifo (s : State) (j : Nat) (v : Word32) : State :=
  { s with mem := { s.mem with fifo := cellWrite s.mem.fifo j v } }

/-- `idx <- i` (10_state.md R33). -/
def setIdx (i : BitVec 16) (s : State) : State := { s with idx := i }

/-- `MemWrite(TBUF, j, f j)` for every `j` of the space, as one effect (20_memory.md R80). -/
def writeTbufAll (s : State) (f : Nat → Word32) : State :=
  { s with mem := { s.mem with tbuf := fillCells (2 * s.cfg.N) f } }

/-- `MemWrite(SURF, j, f j)` for every linear index `j` of the space, as one effect (R80). -/
def writeSurfAll (s : State) (f : Nat → Pixel) : State :=
  { s with mem := { s.mem with surf := fillCells (s.cfg.W * s.cfg.H) f } }

/-- What a `PerPort` holds for port `p`. -/
def PerPort.get {α : Type} (q : PerPort α) (p : Port) : α :=
  match p with
  | .producer => q.producer
  | .consumer => q.consumer
  | .reader => q.reader

/-- A `PerPort` with `a` put in for port `p`. -/
def PerPort.set {α : Type} (q : PerPort α) (p : Port) (a : α) : PerPort α :=
  match p with
  | .producer => { q with producer := a }
  | .consumer => { q with consumer := a }
  | .reader => { q with reader := a }

/-- `respond`: words put on the response stream of the issuing port, in order (R18, R106). -/
def respond (ws : List Word32) (s : State) : State :=
  { s with resps := s.resps.set s.port (s.resps.get s.port ++ ws) }

/-- Taking a fault, `raise Fault(code)` (R272): the first fault since reset sets `err` and `ecode`, a
later one leaves them, and the framed response words are all `ZERO`. Nothing else changes. -/
def raiseFault (code : FaultCode) (frame : Nat) (s : State) : State :=
  let t := if s.err then s else { s with err := true, ecode := code.code }
  respond (List.replicate frame zeroWord) t

/-- The commands that behave in the halted state as when running (R273, 45_readout.md R246). -/
def runsHalted (op : Opcode) : Bool :=
  match op with
  | .nop | .rdStatus | .rdConfig => true
  | .push | .tick | .rdTbuf | .rdPixel | .rdSurface => false

/-- The halted behaviour of the others (R273): no effect but the framed words, all `ZERO`. -/
def haltedCommand (op : Opcode) (s : State) : State :=
  respond (List.replicate (frameWords s.cfg op) zeroWord) s

/-- Every command's checks, in the order of R107, around what it does when they pass: the faults first,
then the halted state, then `run`. -/
def guarded (i : Instr) (s : State) (run : State → Host.Outcome State Fault Refusal) :
    Host.Outcome State Fault Refusal :=
  match commandFault s.port s.cfg i with
  | some code => .next (raiseFault code (frameWords s.cfg i.opcode) s)
  | none => if s.err && !runsHalted i.opcode then .next (haltedCommand i.opcode s) else run s

/-- What a word that decodes to no command does: it faults (R107, R108, R274). An unassigned opcode
frames no response (R106); a wrong port is found before reserved bits. -/
def rejectCommand (r : DecodeReject) (s : State) : State :=
  match r with
  | .unknownOpcode => raiseFault .unknownOpcode 0 s
  | .reservedBits op =>
    if portAllows s.port op then raiseFault .reservedBits (frameWords s.cfg op) s
    else raiseFault .wrongPort (frameWords s.cfg op) s

/-- The reset input (70_reset_and_hazards.md R300, R301): every state component takes its reset value
and what is in flight on the ports is discarded; the parameters stay. -/
def applyReset (s : State) : State := State.resetWith s.cfg (s.draws + 1)

/-- The port after `p` in the model's search for a waiting command (log entry 3). -/
def nextPort (p : Port) : Port :=
  match p with
  | .producer => .consumer
  | .consumer => .reader
  | .reader => .producer

/-- The port whose oldest command executes next: the granted port `s.port`, or where it has none waiting
the first of the other two that has (20_memory.md R80, R81; log entry 3). -/
def servedPort (s : State) : Option Port :=
  if !(s.cmds.get s.port).isEmpty then some s.port
  else if !(s.cmds.get (nextPort s.port)).isEmpty then some (nextPort s.port)
  else if !(s.cmds.get (nextPort (nextPort s.port))).isEmpty then some (nextPort (nextPort s.port))
  else none

/-- The state in which a command issued on port `p` executes (00_scope.md R23). -/
def onPort (p : Port) (s : State) : State := { s with port := p }

/-- The oldest command waiting on port `p`. -/
def oldestCommand (s : State) (p : Port) : Option Command := (s.cmds.get p).head?

/-- The state in which port `p`'s oldest command executes: taken off its queue, with `p` the issuing
port. -/
def takeCommand (s : State) (p : Port) : State :=
  { s with cmds := s.cmds.set p ((s.cmds.get p).drop 1), port := p }

/-- After a command: the next draw number, and the port it grants (log entries 3 and 4). -/
def drawNext (d : Nat) (s : State) : State := { s with draws := d + 1, port := Config.grant (d + 1) }

end Sys2Proof.Machine
end

