-- ==== Sys2Proof/Machine/Flags.lean ====
section
/-! DEFINITION. The flags and the STATUS word: the Readiness Gate's micro-operations (43_gate.md R210,
R211), the other flag writes (40_fifo.md R142, 44_tick.md R222) and the STATUS layout (10_state.md R41,
45_readout.md R243). -/

namespace Sys2Proof.Machine

/-- `IS_READY` (R210). -/
def isReady (s : State) : Bool := s.ready

/-- `MARK_CONSUMED` (R211). -/
def markConsumed (s : State) : State := { s with ready := false }

/-- `ready <- 1`, the last part of a transfer (R142). -/
def setReady (s : State) : State := { s with ready := true }

/-- `rendered <- 1` (R222). -/
def setRendered (s : State) : State := { s with rendered := true }

/-- The STATUS word: IDX in [31:16], ECODE in [7:4], ERR in [2], RENDERED in [1], READY in [0], and the
reserved bits 0 (R41, R243). -/
def statusWord (s : State) : Word32 :=
  s.idx ++ (0 : BitVec 8) ++ s.ecode ++ (0 : BitVec 1) ++
    BitVec.ofBool s.err ++ BitVec.ofBool s.rendered ++ BitVec.ofBool s.ready

end Sys2Proof.Machine
end

