-- ==== Sys2Proof/Machine/Fifo.lean ====
section
/-! DEFINITION. The Sample Fifo: `PUSH` and the transfer (40_fifo.md). -/

namespace Sys2Proof.Machine

/-- The transfer (R142): zero-fill of all `2N` entries, then the `N` Fifo words in index order, then
`ready <- 1`. -/
def transferBlock (s : State) : State :=
  setReady (writeTbufAll s (fun j => if j < s.cfg.N then readFifo s j else zeroWord))

/-- The fullness check of R141 and what it finds: a transfer (R142) or a drop (R143), and the cursor
back to 0 either way (R144). -/
def checkFullness (s : State) : State :=
  if s.idx.toNat = s.cfg.N then setIdx 0 (if s.ready then s else transferBlock s) else s

/-- R145: the sample is written at the cursor, which then advances. A cursor above `N` has no slot to
write (R71). -/
def writeSample (sample : Word32) (s : State) : Host.Outcome State Fault Refusal :=
  if s.idx.toNat < s.cfg.N then .next (setIdx (s.idx + 1) (writeFifo s s.idx.toNat sample))
  else .fault .fifoIndexOutOfRange

/-- `PUSH` (R140). -/
def execPush (sample : Word32) (s : State) : Host.Outcome State Fault Refusal :=
  guarded (.push sample) s (fun s => writeSample sample (checkFullness s))

end Sys2Proof.Machine
end

