-- ==== Sys2Proof/Machine/Readout.lean ====
section
/-! DEFINITION. The external reads and `NOP` (45_readout.md). -/

namespace Sys2Proof.Machine

/-- `NOP` (R245). -/
def execNop (s : State) : Host.Outcome State Fault Refusal := guarded .nop s (fun s => .next s)

/-- A pixel as a response word, bits [31:24] 0 (R240, 20_memory.md R73). -/
def pixelWord (p : Pixel) : Word32 := p.zeroExtend 32

/-- `RD_PIXEL` (R240). -/
def execRdPixel (x y : BitVec 16) (s : State) : Host.Outcome State Fault Refusal :=
  guarded (.rdPixel x y) s
    (fun s => .next (respond [pixelWord (readSurf s (pixelIndex s.cfg x.toNat y.toNat))] s))

/-- The `W*H` words of the whole surface, row-major from the top left (R241). -/
def surfaceWords (s : State) : List Word32 :=
  (List.range (s.cfg.W * s.cfg.H)).map (fun j => pixelWord (readSurf s j))

/-- `RD_SURFACE` (R241). -/
def execRdSurface (s : State) : Host.Outcome State Fault Refusal :=
  guarded .rdSurface s (fun s => .next (respond (surfaceWords s) s))

/-- `RD_TBUF` (R242). -/
def execRdTbuf (tidx : BitVec 16) (s : State) : Host.Outcome State Fault Refusal :=
  guarded (.rdTbuf tidx) s (fun s => .next (respond [readTbuf s tidx.toNat] s))

/-- `RD_STATUS` (R243). -/
def execRdStatus (s : State) : Host.Outcome State Fault Refusal :=
  guarded .rdStatus s (fun s => .next (respond [statusWord s] s))

/-- `RD_CONFIG` (R244). -/
def execRdConfig (sel : BitVec 8) (s : State) : Host.Outcome State Fault Refusal :=
  guarded (.rdConfig sel) s (fun s => .next (respond [configWord s.cfg sel] s))

end Sys2Proof.Machine
end

