-- ==== Sys2Proof/Machine/Binary32.lean ====
section
/-! DEFINITION. The binary32 reading of a word (00_scope.md R19; 93_implementation_defined.md G1, G2):
exact integers in units of `2^-149`, the least positive binary32 value. PRESUMED (log entry 6): the
spec names IEEE 754 binary32 and does not lay it out. -/

namespace Sys2Proof.Machine

/-- The sign bit. -/
def floatSign (m : Word32) : Bool := m.extractLsb' 31 1 == 1

/-- The exponent field. -/
def floatExponent (m : Word32) : Nat := (m.extractLsb' 23 8).toNat

/-- The fraction field. -/
def floatFraction (m : Word32) : Nat := (m.extractLsb' 0 23).toNat

/-- The word is no number. -/
def floatIsNaN (m : Word32) : Bool := floatExponent m == 255 && floatFraction m != 0

/-- The word is a finite value. -/
def floatIsFinite (m : Word32) : Bool := floatExponent m != 255

/-- The absolute value in units of `2^-149`: exact for a finite word; an infinity counts `2^128`. -/
def floatUnits (m : Word32) : Nat :=
  if floatExponent m = 0 then floatFraction m
  else (2 ^ 23 + floatFraction m) * 2 ^ (floatExponent m - 1)

/-- The value of a finite word in units of `2^-149`. -/
def floatValue (m : Word32) : Int :=
  if floatSign m then -(floatUnits m : Int) else (floatUnits m : Int)

/-- A non-negative binary32 value: `+0.0` or positive, not NaN (41_transform.md R161(b)). -/
def floatIsMagnitude (m : Word32) : Bool := !floatSign m && !floatIsNaN m

/-- The pattern of `+infinity`. -/
def infinityPattern : Nat := 0x7F800000

/-- Twice the point halfway between the non-negative values with patterns `p` and `p + 1`, in units of
`2^-149`. -/
def twiceMidpoint (p : Nat) : Nat :=
  floatUnits (BitVec.ofNat 32 p) + floatUnits (BitVec.ofNat 32 (p + 1))

/-- The greatest pattern up to `+infinity` that agrees with `acc` above its low `bits` bits and that
the falling test `above (pattern - 1)` allows, found bit by bit. -/
def patternSearch (above : Nat → Bool) : Nat → Nat → Nat
  | 0, acc => acc
  | bits + 1, acc =>
    let try1 := acc + 2 ^ bits
    patternSearch above bits (if try1 ≤ infinityPattern && above (try1 - 1) then try1 else acc)

/-- The pattern nearest a non-negative real `r`, ties to the even pattern, where `twiceAgainst m`
compares `2r` with the integer `m` in units of `2^-149`. PRESUMED (log entry 16): from the midpoint of
the largest finite value and `2^128` on, the nearest is `+infinity`, as IEEE 754 rounds; neither R164
nor R111 says what a real beyond the range gives. -/
def nearestPattern (twiceAgainst : Nat → Ordering) : Nat :=
  patternSearch
    (fun p =>
      match twiceAgainst (twiceMidpoint p) with
      | .lt => false
      | .eq => p % 2 == 1
      | .gt => true)
    31 0

/-- The binary32 word nearest the rational `num / den`, ties to even (30_encoding.md R111). -/
def nearestFloat (num : Int) (den : Nat) : Word32 :=
  let magnitude := BitVec.ofNat 32 (nearestPattern (fun m => compare (2 * num.natAbs * 2 ^ 149) (m * den)))
  if num < 0 then magnitude ||| 0x80000000 else magnitude

end Sys2Proof.Machine
end

