-- ==== Sys2Proof/Machine/Render.lean ====
section
/-! DEFINITION. The Spectrogram Renderer (42_render.md): the x position (R182), `MAGMAP` (R183), the clamp
(R184), the pixels of a rectangle (R185, R187, R189) and the micro-operation `RENDER` in the closed form
of R186, with the paint loop of R180 beside it. -/

namespace Sys2Proof.Machine

/-- `BLACK` (00_scope.md R20). -/
def black : Pixel := 0x000000

/-- `RED` (00_scope.md R20). -/
def red : Pixel := 0xFF0000

/-- `XPOS(i)` (R182). -/
def xPos (c : Config) (i : Nat) : Nat :=
  match c.xMode with
  | .realFloor => i * c.W / c.B
  | .intDiv => i / c.B * c.W

/-- The default `MAGMAP` (R183): one pixel a unit, truncated, held to `[0, W]`. -/
def truncateWidth (w : Nat) (m : Word32) : Nat :=
  if floatIsNaN m then 0
  else if floatSign m || floatUnits m = 0 then 0
  else if floatUnits m ≥ w * 2 ^ 149 then w
  else floatUnits m / 2 ^ 149

/-- `MAGMAP` (00_scope.md R12): an integer in `[0, W]` under every policy. -/
def magMap (c : Config) (m : Word32) : Nat :=
  match c.magPolicy with
  | .truncate => truncateWidth c.W m
  | .custom => min (Config.customWidth c.W m) c.W

/-- The width drawn for bin `i` of magnitude `m` (R184). -/
def binWidth (c : Config) (i : Nat) (m : Word32) : Nat := min (magMap c m) (c.W - xPos c i)

/-- The pixel `(px, py)` is coloured by bin `i` of magnitude `m` (R185, R187). -/
def binColours (c : Config) (i : Nat) (m : Word32) (px py : Nat) : Bool :=
  let xi := xPos c i
  let wi := binWidth c i m
  decide (xi < c.W) && decide (1 ≤ wi) && decide (xi ≤ px) && decide (px ≤ xi + wi - 1) &&
    decide (py < c.H) && (py == 0 || py == c.H - 1 || px == xi || px == xi + wi - 1)

/-- The pixel at `(px, py)` of the frame of a spectrum (R186). -/
def framePixel (c : Config) (spectrum : Nat → Word32) (px py : Nat) : Pixel :=
  if (List.range c.N).any (fun i => binColours c i (spectrum i) px py) then red else black

/-- `RENDER` (R180, R186): the frame of `tbuf[0..N-1]` (R190) replaces the whole surface. -/
def renderFrame (s : State) : State :=
  writeSurfAll s (fun j => framePixel s.cfg (readTbuf s) (j % s.cfg.W) (j / s.cfg.W))

/-- Step 1 of the loop of R180: every pixel of the surface written `BLACK`, one at a time. -/
def paintBackground (c : Config) (surf : Cells 24) : Cells 24 :=
  (List.range c.W).foldl
    (fun m x => (List.range c.H).foldl (fun m y => cellWrite m (pixelIndex c x y) black) m) surf

/-- The rest of the loop of R180 for one bin. -/
def paintBin (c : Config) (spectrum : Nat → Word32) (surf : Cells 24) (i : Nat) : Cells 24 :=
  let xi := xPos c i
  if xi ≥ c.W then surf
  else
    let wi := min (magMap c (spectrum i)) (c.W - xi)
    if wi = 0 then surf
    else
      (List.range wi).foldl
        (fun m dx =>
          (List.range c.H).foldl
            (fun m py =>
              if py = 0 || py = c.H - 1 || xi + dx = xi || xi + dx = xi + wi - 1 then
                cellWrite m (pixelIndex c (xi + dx) py) red
              else m) m) surf

/-- The loop of R180 as it is written. `RENDER` uses the closed form of R186; the two are stated equal
(`Obligations.RenderLoopPaintsClosedForm`). -/
def paintLoop (c : Config) (spectrum : Nat → Word32) (surf : Cells 24) : Cells 24 :=
  (List.range c.N).foldl (paintBin c spectrum) (paintBackground c surf)

end Sys2Proof.Machine
end

