-- ==== Sys2Proof/Machine/Transform.lean ====
section
/-! DEFINITION. The Spectral Transform Engine (41_transform.md): the configuration function `T` held to
R161, the reference configuration `T_DFT` (R164) computed exactly, the stub `T_ID` (R165), and the
micro-operation `TRANSFORM` (R160). -/

namespace Sys2Proof.Machine

/-- Word `j` of a block, `ZERO` past its end. -/
def blockWord (v : List Word32) (j : Nat) : Word32 := v.getD j zeroWord

/-- The circular autocorrelation of the first `n` words at lag `d`: the sum of `x_i * x_((i+d) mod n)`, in
units of `2^-298`. -/
def autocorrelation (n : Nat) (v : List Word32) (d : Nat) : Int :=
  (List.range n).foldl
    (fun acc i => acc + floatValue (blockWord v i) * floatValue (blockWord v ((i + d) % n))) 0

/-- `cos(2*pi*a/n)` for `a < n` as a sign (0, 1 or -1) times `cos(2*pi*j/n)` with `4j < n`, by the
symmetries of the cosine; `n` is a power of two. -/
def foldAngle (n a : Nat) : Int × Nat :=
  let b := if 2 * a > n then n - a else a
  if 4 * b > n then (-1, n / 2 - b) else if 4 * b = n then (0, 0) else (1, b)

/-- The coefficient of `cos(2*pi*j/n)` in the squared magnitude `|S_k|^2` of bin `k`, in units of
`2^-298`, where `S_k` is the sum of R164. -/
def binCoefficient (n : Nat) (v : List Word32) (k j : Nat) : Int :=
  (List.range n).foldl
    (fun acc d =>
      let g := foldAngle n (k * d % n)
      if g.2 = j then acc + g.1 * autocorrelation n v d else acc) 0

/-- The integer square root of a number below `4 ^ bits`, built from the top bit down. -/
def rootBits (x : Nat) : Nat → Nat → Nat
  | 0, acc => acc
  | bits + 1, acc =>
    let try1 := acc + 2 ^ bits
    rootBits x bits (if try1 * try1 ≤ x then try1 else acc)

/-- `2 * cos(2*pi*j / 2^e)` for `4j <= 2^e`, scaled by `2 ^ prec` and rounded, by half-angle
formulas. -/
def twiceCosine (prec : Nat) : Nat → Nat → Int
  | 0, _ => 2 * 2 ^ prec
  | e + 1, j =>
    if 4 * j = 2 ^ (e + 1) then 0
    else
      let inner :=
        if 4 * j > 2 ^ e then -(twiceCosine prec e (2 ^ e / 2 - j)) else twiceCosine prec e j
      (rootBits ((2 * 2 ^ prec + inner) * 2 ^ prec).toNat (prec + 2) 0 : Int)

/-- The order of `|S_k|^2 * 4` against `m^2`, from the coefficients `cs` of `|S_k|^2` for a block of `2^e`
words. Where a cosine has a non-zero coefficient the difference `D` is irrational and an algebraic
integer of degree below `2^e / 4 + 1`, so `|D| >= M ^ (1 - 2^e / 4)` for the bound `M` on its conjugates;
the precision is chosen past that and past the rounding of `twiceCosine` (log entry 8). -/
def compareBin (e : Nat) (cs : List Int) (m : Nat) : Ordering :=
  let c0 := cs.headD 0
  let rest := cs.drop 1
  let rational : Int := 4 * c0 - (m : Int) * m
  if rest.all (fun c => c == 0) then compare rational 0
  else
    let size := Nat.log2 (4 * (cs.foldl (fun a c => a + c.natAbs) 0) + m * m + 1) + 1
    let prec := (2 ^ e / 4 + 2) * size + 1024
    let tail := (rest.zipIdx 1).foldl (fun acc cj => acc + 2 * cj.1 * twiceCosine prec e cj.2) 0
    compare (rational * 2 ^ prec + tail) 0

/-- The coefficients of `|S_k|^2` for a block of `2^e` words. -/
def binCoefficients (e : Nat) (v : List Word32) (k : Nat) : List Int :=
  (List.range (max 1 (2 ^ e / 4))).map (binCoefficient (2 ^ e) v k)

/-- Output word `k` of `T_DFT` (R164) on a block of `2^e` finite words: the binary32 value nearest the
exact magnitude of bin `k`, ties to even, and `ZERO` in the scratch half. A magnitude past the largest
finite binary32 value rounds by IEEE 754's rule, which R164 does not state (log entry 16). -/
def dftWord (e : Nat) (v : List Word32) (k : Nat) : Word32 :=
  if k < 2 ^ e then
    let cs := binCoefficients e v k
    BitVec.ofNat 32 (nearestPattern (compareBin e cs))
  else zeroWord

/-- Output word `j` of `T` on the `2N` finite input words `v`, a function of the block alone (R11,
R161(a)). The library is any function whose first `N` outputs are magnitudes (R161(b), log entry 5). -/
def finiteTransformWord (c : Config) (v : List Word32) (j : Nat) : Word32 :=
  match c.engine with
  | .library =>
    let u := Config.engineWord c.N v j
    if j < c.N && !floatIsMagnitude u then zeroWord else u
  | .referenceDft => dftWord c.blockLog.val v j
  | .testIdentity => blockWord v j

/-- Output word `j` of `T` on the `2N` input words `v`, as draw number `draw` finds it. A block with a
non-finite word gives any value, drawn afresh (U6, which R161 does not bind), but for the stub of R165,
which is the identity on every block (log entry 5). -/
def transformWord (c : Config) (draw : Nat) (v : List Word32) (j : Nat) : Word32 :=
  if v.all floatIsFinite || c.engine == .testIdentity then finiteTransformWord c v j
  else Config.freeTransformWord draw v j

/-- The `2N` words of the Transform Buffer, the input of `T` (R160). -/
def tbufWords (s : State) : List Word32 := (List.range (2 * s.cfg.N)).map (readTbuf s)

/-- `TRANSFORM` (R160): `tbuf <- T(tbuf)`, in place. -/
def transformInPlace (s : State) : State := writeTbufAll s (transformWord s.cfg s.draws (tbufWords s))

end Sys2Proof.Machine
end

