-- ==== Sys2Proof/Machine/Tick.lean ====
section
/-! DEFINITION. Pipeline orchestration: `TICK` (44_tick.md). -/

namespace Sys2Proof.Machine

/-- The ready path of a tick (R222): `TRANSFORM`, `RENDER`, `rendered <- 1`, `MARK_CONSUMED`. -/
def tickReady (s : State) : State := markConsumed (setRendered (renderFrame (transformInPlace s)))

/-- `TICK` (R220): nothing at all when the gate is not ready (R221). -/
def execTick (s : State) : Host.Outcome State Fault Refusal :=
  guarded .tick s (fun s => if isReady s then .next (tickReady s) else .next s)

end Sys2Proof.Machine
end

