-- ==== Sys2Proof/Machine/Dispatch.lean ====
section
/-! DEFINITION. One arm for each command (30_encoding.md R104). -/

namespace Sys2Proof.Machine

/-- The effect of command `i` issued on port `s.port`, one atomic step (20_memory.md R80). -/
def exec (i : Instr) (s : State) : Host.Outcome State Fault Refusal :=
  match i with
  | .nop => Sys2Proof.Machine.execNop s
  | .push sample => Sys2Proof.Machine.execPush sample s
  | .tick => Sys2Proof.Machine.execTick s
  | .rdTbuf tidx => Sys2Proof.Machine.execRdTbuf tidx s
  | .rdPixel x y => Sys2Proof.Machine.execRdPixel x y s
  | .rdSurface => Sys2Proof.Machine.execRdSurface s
  | .rdStatus => Sys2Proof.Machine.execRdStatus s
  | .rdConfig sel => Sys2Proof.Machine.execRdConfig sel s

end Sys2Proof.Machine
end

