-- ==== Sys2Proof/Machine/Step.lean ====
section
/-! DEFINITION. One step of the block: a reset, or one command of one port as one atomic step (20_memory.md
R80, R81; 70_reset_and_hazards.md R300, R302). -/

namespace Sys2Proof.Machine

/-- The effect of command word `w` issued on port `s.port` (30_encoding.md R107). -/
def runWord (w : Command) (s : State) : Host.Outcome State Fault Refusal :=
  match decode w with
  | .ok i => exec i s
  | .error r => .next (rejectCommand r s)

/-- One step. With the reset input asserted the block resets; with no command waiting it changes nothing;
otherwise the served port's oldest command executes. -/
def step (s : State) : Host.Outcome State Fault Refusal :=
  if s.rst then .next (applyReset s)
  else
    match servedPort s with
    | none => .next s
    | some p =>
      match oldestCommand s p with
      | none => .next s
      | some w =>
        match runWord w (takeCommand s p) with
        | .next t => .next (drawNext s.draws t)
        | .fault f => .fault f
        | .refused r => .refused r

/-- The first port, in the order P, C, R, on which word `w` faults for no wrong port (30_encoding.md
R105). -/
def portForWord (w : Command) : Port :=
  match opcodeOfByte (opcField w) with
  | none => .producer
  | some op =>
    if portAllows .producer op then .producer
    else if portAllows .consumer op then .consumer
    else .reader

/-- `s` with a table word accepted ahead of every other command on a port it is legal on, that port
granted and the reset input released, so that the next step executes it (log entry 10). -/
def State.withFetchWord (s : State) (nbits w : Nat) : State :=
  let word : Command := BitVec.ofNat 64 (w % 2 ^ nbits)
  let p := portForWord word
  { s with cmds := s.cmds.set p (word :: s.cmds.get p), port := p, rst := false }

end Sys2Proof.Machine
end

