-- ==== Sys2Proof/Machine/Assembler.lean ====
section
/-! DEFINITION. The assembler of a listing: the command syntax (30_encoding.md R110) and the
pseudo-instructions (R111). A line is a list of characters. What an operand that fits its field means is
the block's business: an assembled command may still fault. -/

namespace Sys2Proof.Machine

/-- A line's operation, each literal as it is written. -/
inductive AsmOp where
  | nop
  | push (word : Nat)
  | tick
  | rdTbuf (tidx : Nat)
  | rdPixel (x y : Nat)
  | rdSurface
  | rdStatus
  | rdConfig (sel : Nat)
  /-- `PUSHF`, the real written as `num / den`. -/
  | pushF (num : Int) (den : Nat)
  | pushBlk (words : List Nat)
  | rdN
  | rdW
  | rdH
  | rdB
  | rdXMode
  | rdVersion
  deriving DecidableEq, Repr

/-- Why the assembler refuses a line. -/
inductive AsmError where
  /-- The line is not of the syntax of R110 and R111. -/
  | badSyntax
  /-- A literal does not fit its field (R110). -/
  | literalTooWide
  /-- The operand of `PUSHF` is no finite real (R111). -/
  | notFiniteReal
  /-- The first command of the listing names no port (R110). -/
  | noPort
  deriving DecidableEq, Repr

/-- A line: the port it names, if it does, and its operation. -/
structure SourceLine where
  port : Option Port
  op : AsmOp
  deriving DecidableEq, Repr

/-- A literal as a field of `w` bits, refused where it does not fit. -/
def fieldOf (w n : Nat) : Except AsmError (BitVec w) :=
  if n < 2 ^ w then .ok (BitVec.ofNat w n) else .error .literalTooWide

/-- The `PUSH` commands of a list of words, in order. -/
def pushWords : List Nat → Except AsmError (List Instr)
  | [] => .ok []
  | n :: rest =>
    match fieldOf 32 n, pushWords rest with
    | .ok w, .ok is => .ok (.push w :: is)
    | .error e, _ => .error e
    | _, .error e => .error e

/-- The commands an operation stands for (R111). -/
def expandOp (op : AsmOp) : Except AsmError (List Instr) :=
  match op with
  | .nop => .ok [.nop]
  | .push n => pushWords [n]
  | .tick => .ok [.tick]
  | .rdTbuf t => (fieldOf 16 t).map (fun t => [.rdTbuf t])
  | .rdPixel x y =>
    match fieldOf 16 x, fieldOf 16 y with
    | .ok x, .ok y => .ok [.rdPixel x y]
    | .error e, _ => .error e
    | _, .error e => .error e
  | .rdSurface => .ok [.rdSurface]
  | .rdStatus => .ok [.rdStatus]
  | .rdConfig n => (fieldOf 8 n).map (fun n => [.rdConfig n])
  | .pushF num den => if den = 0 then .error .notFiniteReal else .ok [.push (nearestFloat num den)]
  | .pushBlk [] => .error .badSyntax
  | .pushBlk (n :: ns) => pushWords (n :: ns)
  | .rdN => .ok [.rdConfig 0]
  | .rdW => .ok [.rdConfig 1]
  | .rdH => .ok [.rdConfig 2]
  | .rdB => .ok [.rdConfig 3]
  | .rdXMode => .ok [.rdConfig 4]
  | .rdVersion => .ok [.rdConfig 5]

/-- The port a line issues on: the one it names, else the previous line's (R110); the words of
`PUSHBLK` go out on port P (R111). -/
def linePort (previous : Option Port) (l : SourceLine) : Option Port :=
  match l.port.or previous, l.op with
  | some _, .pushBlk _ => some .producer
  | p, _ => p

/-- The command words of a listing, each with the port it is offered on, in order. -/
def assemble (previous : Option Port) : List SourceLine → Except AsmError (List (Port × Command))
  | [] => .ok []
  | l :: rest =>
    match linePort previous l, expandOp l.op with
    | none, _ => .error .noPort
    | _, .error e => .error e
    | some p, .ok is =>
      match assemble (some p) rest with
      | .error e => .error e
      | .ok more => .ok (is.map (fun i => (p, encode i)) ++ more)

/-- A line without its comment (R110). -/
def stripComment (cs : List Char) : List Char := cs.takeWhile (fun c => c != ';')

/-- A space or a tab. -/
def isBlank (c : Char) : Bool := c == ' ' || c == '\t'

/-- Without blanks at either end. -/
def trimBlanks (cs : List Char) : List Char :=
  ((cs.dropWhile isBlank).reverse.dropWhile isBlank).reverse

/-- The pieces between commas. -/
def splitCommas : List Char → List (List Char)
  | [] => [[]]
  | c :: rest =>
    match splitCommas rest with
    | [] => [[c]]
    | piece :: pieces => if c == ',' then [] :: piece :: pieces else (c :: piece) :: pieces

/-- The operands of a line: the pieces between commas, each without blanks at its ends. -/
def splitOperands (cs : List Char) : List (List Char) := (splitCommas cs).map trimBlanks

/-- The value of a digit. -/
def digitValue (c : Char) : Option Nat :=
  if '0' ≤ c ∧ c ≤ '9' then some (c.toNat - '0'.toNat)
  else if 'a' ≤ c ∧ c ≤ 'f' then some (c.toNat - 'a'.toNat + 10)
  else if 'A' ≤ c ∧ c ≤ 'F' then some (c.toNat - 'A'.toNat + 10)
  else none

/-- The number a list of digits writes, after `acc`. -/
def digitsFrom (base acc : Nat) : List Char → Option Nat
  | [] => some acc
  | c :: rest =>
    match digitValue c with
    | none => none
    | some d => if d < base then digitsFrom base (acc * base + d) rest else none

/-- The number a non-empty list of digits writes. -/
def digits (base : Nat) (cs : List Char) : Option Nat :=
  if cs.isEmpty then none else digitsFrom base 0 cs

/-- An unsigned integer literal, decimal or `0x` hexadecimal (R110); `_` separates hexadecimal digits
for reading only (00_scope.md R16). -/
def natLiteral (cs : List Char) : Option Nat :=
  match cs with
  | '0' :: 'x' :: rest => digits 16 (rest.filter (fun c => c != '_'))
  | _ => digits 10 cs

/-- Digits with at most one point in them, as numerator and power of ten. -/
def pointLiteral (cs : List Char) : Option (Nat × Nat) :=
  let whole := cs.takeWhile (fun c => c != '.')
  match cs.drop whole.length with
  | [] => (digits 10 whole).map (fun n => (n, 1))
  | _ :: frac => (digits 10 (whole ++ frac)).map (fun n => (n, 10 ^ frac.length))

/-- A real literal, in decimal with an optional sign (DESIGN CHOICE, log entry 11: R111 does not say how
a real is written). -/
def realLiteral (cs : List Char) : Option (Int × Nat) :=
  match cs with
  | '-' :: rest => (pointLiteral rest).map (fun q => (-(q.1 : Int), q.2))
  | _ => (pointLiteral cs).map (fun q => ((q.1 : Int), q.2))

/-- The operation a mnemonic and its operands write. -/
def parseOp (mnemonic : List Char) (operands : List (List Char)) : Except AsmError AsmOp :=
  let numbers := operands.mapM natLiteral
  match mnemonic, operands, numbers with
  | ['N', 'O', 'P'], [], _ => .ok .nop
  | ['P', 'U', 'S', 'H'], _, some [w] => .ok (.push w)
  | ['T', 'I', 'C', 'K'], [], _ => .ok .tick
  | ['R', 'D', '_', 'T', 'B', 'U', 'F'], _, some [t] => .ok (.rdTbuf t)
  | ['R', 'D', '_', 'P', 'I', 'X', 'E', 'L'], _, some [x, y] => .ok (.rdPixel x y)
  | ['R', 'D', '_', 'S', 'U', 'R', 'F', 'A', 'C', 'E'], [], _ => .ok .rdSurface
  | ['R', 'D', '_', 'S', 'T', 'A', 'T', 'U', 'S'], [], _ => .ok .rdStatus
  | ['R', 'D', '_', 'C', 'O', 'N', 'F', 'I', 'G'], _, some [n] => .ok (.rdConfig n)
  | ['P', 'U', 'S', 'H', 'F'], [r], _ =>
    match realLiteral r with
    | some (num, den) => .ok (.pushF num den)
    | none => .error .notFiniteReal
  | ['P', 'U', 'S', 'H', 'B', 'L', 'K'], _, some (w :: ws) => .ok (.pushBlk (w :: ws))
  | ['R', 'D', '_', 'N'], [], _ => .ok .rdN
  | ['R', 'D', '_', 'W'], [], _ => .ok .rdW
  | ['R', 'D', '_', 'H'], [], _ => .ok .rdH
  | ['R', 'D', '_', 'B'], [], _ => .ok .rdB
  | ['R', 'D', '_', 'X', 'M', 'O', 'D', 'E'], [], _ => .ok .rdXMode
  | ['R', 'D', '_', 'V', 'E', 'R', 'S', 'I', 'O', 'N'], [], _ => .ok .rdVersion
  | _, _, _ => .error .badSyntax

/-- The port prefix of a line, and what follows it (R110). -/
def parsePort (cs : List Char) : Option Port × List Char :=
  match cs with
  | 'P' :: ':' :: rest => (some .producer, trimBlanks rest)
  | 'C' :: ':' :: rest => (some .consumer, trimBlanks rest)
  | 'R' :: ':' :: rest => (some .reader, trimBlanks rest)
  | _ => (none, cs)

/-- One line of a listing (R110); a line that is empty or only a comment holds no command. -/
def parseLine (cs : List Char) : Except AsmError (Option SourceLine) :=
  let body := trimBlanks (stripComment cs)
  if body.isEmpty then .ok none
  else
    let (port, rest) := parsePort body
    let mnemonic := rest.takeWhile (fun c => !isBlank c)
    let operandText := trimBlanks (rest.drop mnemonic.length)
    let operands := if operandText.isEmpty then [] else splitOperands operandText
    match parseOp mnemonic operands with
    | .ok op => .ok (some { port := port, op := op })
    | .error e => .error e

end Sys2Proof.Machine
end

