-- ==== Sys2Proof/Machine/Ports.lean ====
section
/-! DEFINITION. What the outside world does to the block between two steps: it offers commands, takes
responses and asserts the reset input (10_state.md R52; 70_reset_and_hazards.md R301, R306 to R308). -/

namespace Sys2Proof.Machine

/-- What is in progress inside an implementation when a command is offered (R307, R308). -/
structure Activity where
  /-- The clock cycles since the acceptance of the `TICK` in progress, if there is one. -/
  tickCycles : Option Nat
  /-- An `RD_SURFACE` is in progress. -/
  surfaceRead : Bool
  deriving DecidableEq, Repr

/-- The flow control a port is allowed: P never withholds acceptance (R306), C during a `TICK` for at
most `TICK_MAX_CYCLES` cycles (R307), R during a `TICK` or an `RD_SURFACE` (R308). -/
def mayWithhold (c : Config) (p : Port) (a : Activity) : Bool :=
  match p with
  | .producer => false
  | .consumer =>
    match a.tickCycles with
    | none => false
    | some k => decide (k < c.tickMaxCycles)
  | .reader => a.tickCycles.isSome || a.surfaceRead

/-- A `TICK` has been accepted on port C and not yet executed. -/
def tickAccepted (s : State) : Bool :=
  (s.cmds.get .consumer).any (fun w => decide (decode w = .ok .tick))

/-- Port `p` can accept a command: never while reset is asserted (R301), and port C not before a `TICK` it
has accepted has completed (44_tick.md R224; log entry 17). A halted block keeps every port free of
stalls (60_exceptions.md R273), since a `TICK` does nothing in it. -/
def portOpen (p : Port) (s : State) : Bool := !s.rst && !(p == .consumer && !s.err && tickAccepted s)

/-- A command accepted on port `p` waits behind the port's earlier ones (R52). -/
def acceptCommand (p : Port) (w : Command) (s : State) : State :=
  if portOpen p s then { s with cmds := s.cmds.set p (s.cmds.get p ++ [w]) } else s

/-- The acceptance an implementation must withhold: on port C, while a `TICK` is in progress in it
(44_tick.md R224), whatever it would like, unless the block has halted (`withholds`). -/
def mustWithhold (p : Port) (a : Activity) : Bool := p == .consumer && a.tickCycles.isSome

/-- Port `p` withholds acceptance, where the implementation would like to (`stall`) or not. DESIGN CHOICE
(log entry 17): a block that has halted during a `TICK` or an `RD_SURFACE` withholds nothing, on port C or
port R, as 60_exceptions.md R273 says of every port, although R224, R307 and R308 speak of what is in
progress without naming the halted state. -/
def withholds (a : Activity) (stall : Bool) (p : Port) (s : State) : Bool :=
  !s.err && (mustWithhold p a || (stall && mayWithhold s.cfg p a))

/-- A command offered on port `p` in a cycle in which the implementation would like to withhold
acceptance (`stall`) or not. -/
def offerCommand (a : Activity) (stall : Bool) (p : Port) (w : Command) (s : State) : State :=
  if withholds a stall p s then s else acceptCommand p w s

/-- The oldest undelivered response of port `p` (30_encoding.md R106), and the state after it is
delivered. DESIGN CHOICE (log entry 14): it may still be delivered while reset is asserted, up to the
step that applies the reset; R301 closes the ports to commands and does not speak of this. -/
def deliverResponse (p : Port) (s : State) : Option (Word32 × State) :=
  match s.resps.get p with
  | [] => none
  | v :: rest => some (v, { s with resps := s.resps.set p rest })

/-- The reset input asserted for the next step (R300). -/
def assertReset (s : State) : State := { s with rst := true }

end Sys2Proof.Machine
end

