-- ==== Sys2Proof/Safety.lean ====
section
/-! DEFINITION. What holds in every state that a run reaches, and what a safe run is. -/

namespace Sys2Proof.Machine

/-- What holds between any two commands: storage in canonical form; the cursor in `[0, N]` (10_state.md
R33); every slot below the cursor, and the whole Fifo once a block has been through it, written (R44,
R48); while `ready`, a whole transfer input in the Transform Buffer (R43, 41_transform.md R162); a
surface wholly unwritten before the first render and wholly painted after it (R38, R50); `ecode` 0
exactly when `err` is 0, and one of 1 to 6 otherwise (R40, 60_exceptions.md R271). -/
structure State.Inv (s : State) : Prop where
  storage : s.mem.wf s.cfg = true
  cursor : s.idx.toNat ≤ s.cfg.N
  written : ∀ j, j < s.idx.toNat → (cellAt s.mem.fifo j).isSome = true
  wholeFifo : s.ready = true ∨ s.rendered = true → ∀ j, j < s.cfg.N → (cellAt s.mem.fifo j).isSome = true
  input : s.ready = true → ∀ j, j < 2 * s.cfg.N → (cellAt s.mem.tbuf j).isSome = true
  scratch : s.ready = true → ∀ j, s.cfg.N ≤ j → j < 2 * s.cfg.N → cellAt s.mem.tbuf j = some zeroWord
  painted : s.rendered = true → ∀ j, j < s.cfg.W * s.cfg.H → (cellAt s.mem.surf j).isSome = true
  unpainted : s.rendered = false → s.mem.surf = []
  noCode : s.err = false → s.ecode = 0
  code : s.err = true → 1 ≤ s.ecode.toNat ∧ s.ecode.toNat ≤ 6

/-- In a running block no command waits on port C behind a `TICK` (44_tick.md R224, log entry 17). -/
def State.tickIsLast (s : State) : Prop :=
  s.err = false → ∀ w ∈ (s.cmds.get .consumer).dropLast, decode w ≠ .ok .tick

/-- The block is running, not halted (60_exceptions.md R273). -/
def State.running (s : State) : Bool := !s.err

/-- The architectural state of R30, and the parameters, are the same in both states. -/
structure State.sameBlock (s t : State) : Prop where
  cfg : t.cfg = s.cfg
  mem : t.mem = s.mem
  idx : t.idx = s.idx
  ready : t.ready = s.ready
  rendered : t.rendered = s.rendered
  err : t.err = s.err
  ecode : t.ecode = s.ecode

/-- `t` has the words `ws` more on the response stream of the port that issued the command in `s`, and
is otherwise the same on the ports: queues, other streams, reset input, issuing port, draws. -/
structure State.answered (s t : State) (ws : List Word32) : Prop where
  cmds : t.cmds = s.cmds
  resps : ∀ p, t.resps.get p = if p = s.port then s.resps.get p ++ ws else s.resps.get p
  rst : t.rst = s.rst
  port : t.port = s.port
  draws : t.draws = s.draws

/-- A safe step: it stops in no fault and no refusal, and the block it leaves is running. -/
def safeStep (s : State) : Prop := ∃ t, step s = .next t ∧ t.running = true

end Sys2Proof.Machine
end

