-- ==== Sys2Proof/Certificates/Slice0/Obligations.lean ====
section
/-! DEFINITION. The statements for the provers. -/

open Sys2Proof Sys2Proof.Machine

/-- The fault that 30_encoding.md R107 gives word `w` on port `p`, in the order written there, read off
the word's number: OPC from bit 56, RSV from bit 32, ARG below. -/
def Sys2Proof.Claims.faultCode (c : Config) (p : Port) (w : Command) : Option (BitVec 4) :=
  let opc := w.toNat / 2 ^ 56
  let rsv := w.toNat / 2 ^ 32 % 2 ^ 24
  let arg := w.toNat % 2 ^ 32
  if opc ∉ [0x00, 0x01, 0x10, 0x11, 0x20, 0x21, 0x30, 0x31] then some 1
  else if (opc = 0x01 ∧ p ≠ .producer) ∨ (opc ∈ [0x10, 0x11] ∧ p ≠ .consumer) ∨
      (opc ∈ [0x20, 0x21] ∧ p ≠ .reader) then some 2
  else if rsv ≠ 0 then some 3
  else if opc ∈ [0x00, 0x10, 0x21, 0x30] ∧ arg ≠ 0 then some 3
  else if opc = 0x11 ∧ arg / 2 ^ 16 ≠ 0 then some 3
  else if opc = 0x11 ∧ arg % 2 ^ 16 ≥ 2 * c.N then some 5
  else if opc = 0x20 ∧ (arg % 2 ^ 16 ≥ c.W ∨ arg / 2 ^ 16 ≥ c.H) then some 4
  else if opc = 0x31 ∧ arg / 2 ^ 8 ≠ 0 then some 3
  else if opc = 0x31 ∧ arg % 2 ^ 8 > 5 then some 6
  else none

/-- The number of response words that 30_encoding.md R106 gives a word, by its OPC alone. -/
def Sys2Proof.Claims.responseCount (c : Config) (w : Command) : Nat :=
  let opc := w.toNat / 2 ^ 56
  if opc ∈ [0x11, 0x20, 0x30, 0x31] then 1 else if opc = 0x21 then c.W * c.H else 0

/-- Commands executed one after another, each issued on its port; `none` if one stops. -/
def Sys2Proof.Claims.issue : List (Port × Instr) → State → Option State
  | [], s => some s
  | (p, i) :: rest, s =>
    match exec i (onPort p s) with
    | .next t => Sys2Proof.Claims.issue rest t
    | .fault _ => none
    | .refused _ => none

/-- The value of a finite binary32 word (00_scope.md R19), from its sign, exponent and fraction. -/
def Sys2Proof.Claims.binary32Value (m : Word32) : ℚ :=
  let e : Nat := m.toNat / 2 ^ 23 % 2 ^ 8
  let f : Nat := m.toNat % 2 ^ 23
  (if m.toNat / 2 ^ 31 = 0 then 1 else -1) *
    (if e = 0 then (f : ℚ) * 2 ^ (-149 : ℤ) else ((2 ^ 23 + f : ℕ) : ℚ) * 2 ^ ((e : ℤ) - 150))

/-- The spectrum a tick renders: the first words of the transform's output (41_transform.md R160). -/
def Sys2Proof.Claims.spectrum (s : State) (i : Nat) : Word32 :=
  transformWord s.cfg s.draws ((List.range (2 * s.cfg.N)).map (readTbuf s)) i

/-- 10_state.md R45 to R47 and 70_reset_and_hazards.md R300, R301: the reset input, in any state, leaves
the reset values, storage with nothing written and nothing in flight, and no command is accepted while it
is asserted; the machine starts so too. That one step releases the input is the model's choice (log
entry 14). -/
def Obligations.ResetInputRestoresResetValues : Prop :=
  (∀ s : State, s.rst = true → ∃ t, step s = .next t ∧ t.cfg = s.cfg ∧ t.idx = 0 ∧ t.ready = false ∧
      t.rendered = false ∧ t.err = false ∧ t.ecode = 0 ∧ t.rst = false ∧
      (∀ j, cellAt t.mem.fifo j = none ∧ cellAt t.mem.tbuf j = none ∧ cellAt t.mem.surf j = none) ∧
      (∀ p, t.cmds.get p = [] ∧ t.resps.get p = []) ∧ (∀ p w, acceptCommand p w s = s)) ∧
  State.reset.idx = 0 ∧ State.reset.ready = false ∧ State.reset.rendered = false ∧
    State.reset.err = false ∧ State.reset.ecode = 0

/-- The invariant of Safety.lean (10_state.md R33, R38, R40, R43, R44) holds after reset of any block. -/
def Obligations.ResetEstablishesInvariant : Prop :=
  State.reset.Inv ∧ ∀ (s t : State), s.rst = true → step s = .next t → t.Inv

/-- Every step keeps the invariant of Safety.lean, from every state that has it. -/
def Obligations.EveryStepKeepsInvariant : Prop :=
  ∀ s t : State, s.Inv → step s = .next t → t.Inv

/-- Decoding a command's word gives the command back (30_encoding.md R101, R102, R104, R110). -/
def Obligations.DecodeOfEncodeIsTheCommand : Prop :=
  ∀ i : Instr, decode (encode i) = .ok i

/-- A word that decodes is its command's only word (30_encoding.md R108: no ignored bits). -/
def Obligations.EncodeOfDecodeIsTheWord : Prop :=
  ∀ (w : Command) (i : Instr), decode w = .ok i → encode i = w

/-- The table of 30_encoding.md R113, row by row, both ways. -/
def Obligations.ExampleEncodingsOfTheSpec : Prop :=
  ∀ e ∈ ([(.nop, 0x0000000000000000), (.push 0x3F800000, 0x010000003F800000),
      (.push 0x40800000, 0x0100000040800000), (.tick, 0x1000000000000000),
      (.rdTbuf 3, 0x1100000000000003), (.rdPixel 1 2, 0x2000000000020001),
      (.rdSurface, 0x2100000000000000), (.rdStatus, 0x3000000000000000),
      (.rdConfig 3, 0x3100000000000003)] : List (Instr × Command)),
    encode e.1 = e.2 ∧ decode e.2 = .ok e.1

/-- One step executes the oldest command of the served port, off its queue and with that port the
issuing one: `exec` of the instruction its word decodes to, or the fault of a word that decodes to none.
Around it the step only advances the model's own fields `draws` and `port` (log entries 3 and 4). -/
def Obligations.StepExecutesServedCommand : Prop :=
  ∀ (s : State) (p : Port) (w : Command), s.rst = false → servedPort s = some p →
    (s.cmds.get p).head? = some w →
    (∀ i, decode w = .ok i →
      step s =
        match exec i { s with cmds := s.cmds.set p ((s.cmds.get p).drop 1), port := p } with
        | .next t => .next { t with draws := s.draws + 1, port := Config.grant (s.draws + 1) }
        | .fault f => .fault f
        | .refused r => .refused r) ∧
    (∀ r, decode w = .error r →
      step s = .next { rejectCommand r
          { s with cmds := s.cmds.set p ((s.cmds.get p).drop 1), port := p } with
        draws := s.draws + 1, port := Config.grant (s.draws + 1) })

/-- 20_memory.md R81: whichever port is granted is served if it has a command waiting, so every
interleaving can happen. The grant is the model's own field (log entry 3). That a step with none waiting
changes nothing is the model's choice (log entry 15), no part of R81. -/
def Obligations.GrantedPortIsServed : Prop :=
  (∀ (s : State) (p : Port), s.cmds.get p ≠ [] → servedPort (onPort p s) = some p) ∧
  (∀ s : State, (servedPort s = none ↔ ∀ p, s.cmds.get p = []) ∧
    (s.rst = false → servedPort s = none → step s = .next s)) ∧
  (∀ (s : State) (p : Port), servedPort s = some p → s.cmds.get p ≠ [])

/-- The next step runs a table word that `withFetchWord` places ahead of the commands that waited, which all
stay as they were (log entry 10). -/
def Obligations.FetchWordIsServedNext : Prop :=
  ∀ (s : State) (w : Nat), w < 2 ^ 64 →
    (s.withFetchWord 64 w).rst = false ∧
    ∃ p, servedPort (s.withFetchWord 64 w) = some p ∧
      ((s.withFetchWord 64 w).cmds.get p).head? = some (BitVec.ofNat 64 w) ∧
      ((s.withFetchWord 64 w).cmds.get p).tail = s.cmds.get p ∧
      (∀ i, decode (BitVec.ofNat 64 w) = .ok i → i.opcode.ports.contains p = true) ∧
      (s.withFetchWord 64 w).cmds.set p (s.cmds.get p) = s.cmds

/-- 20_memory.md R80 and 10_state.md R52: a step takes at most the oldest command of the served port,
adds responses at the end of that port's stream only, and leaves every other queue and stream. -/
def Obligations.PortsKeepTheirOrder : Prop :=
  ∀ s t : State, s.rst = false → step s = .next t →
    (∀ p, servedPort s ≠ some p → t.cmds.get p = s.cmds.get p ∧ t.resps.get p = s.resps.get p) ∧
    (∀ p, servedPort s = some p →
      s.cmds.get p ≠ [] ∧ t.cmds.get p = (s.cmds.get p).tail ∧ s.resps.get p <+: t.resps.get p)

/-- 30_encoding.md R106: the number of response words depends on OPC alone, in every state, on every
port, faulting, halted or not; they follow the responses of the commands before, and a port delivers its
responses oldest first. That it delivers them while reset is asserted too is the model's choice (log entry
14), no part of R106. -/
def Obligations.ResponseFramingDependsOnOpcodeAlone : Prop :=
  (∀ (s t : State) (w : Command), runWord w s = .next t →
    (∃ ws, ws.length = Sys2Proof.Claims.responseCount s.cfg w ∧
      t.resps.get s.port = s.resps.get s.port ++ ws) ∧
    ∀ p, p ≠ s.port → t.resps.get p = s.resps.get p) ∧
  ∀ (s : State) (p : Port) (v : Word32) (rest : List Word32), s.resps.get p = v :: rest →
    ∃ t, deliverResponse p s = some (v, t) ∧ t.resps.get p = rest ∧ s.sameBlock t

/-- 60_exceptions.md R272 and R274: which words fault, with which code, and all that a fault does; a word
that does not fault leaves `err` and `ecode`. -/
def Obligations.FaultsFollowCheckOrder : Prop :=
  ∀ (s : State) (w : Command),
    (∀ k, Sys2Proof.Claims.faultCode s.cfg s.port w = some k →
      ∃ t, runWord w s = .next t ∧ t.cfg = s.cfg ∧ t.mem = s.mem ∧ t.idx = s.idx ∧ t.ready = s.ready ∧
        t.rendered = s.rendered ∧ t.err = true ∧ (s.err = false → t.ecode = k) ∧
        (s.err = true → t.ecode = s.ecode) ∧
        s.answered t (List.replicate (Sys2Proof.Claims.responseCount s.cfg w) 0x00000000)) ∧
    (Sys2Proof.Claims.faultCode s.cfg s.port w = none →
      ∀ t, runWord w s = .next t → t.err = s.err ∧ t.ecode = s.ecode)

/-- 60_exceptions.md R273, 40_fifo.md R149, 44_tick.md R225, 45_readout.md R246: what each command without
a fault does in the halted state. -/
def Obligations.HaltedCommandsHaveNoEffect : Prop :=
  ∀ (s : State) (i : Instr), s.err = true → i.wellFormed s.port s.cfg = true →
    ∃ t, exec i s = .next t ∧ s.sameBlock t ∧
      s.answered t
        (match i with
          | .nop | .push _ | .tick => []
          | .rdTbuf _ | .rdPixel _ _ => [0x00000000]
          | .rdSurface => List.replicate (s.cfg.W * s.cfg.H) 0x00000000
          | .rdStatus => [statusWord s]
          | .rdConfig sel => [configWord s.cfg sel])

/-- 60_exceptions.md R273, R276, R277: no command on any port, faulting or not, leaves the halted state
or changes the block in it; only reset does. -/
def Obligations.OnlyResetLeavesTheHaltedState : Prop :=
  ∀ s t : State, s.err = true → s.rst = false → step s = .next t → s.sameBlock t

/-- 40_fifo.md R141, R145: a push with a free slot at the cursor writes its sample there, advances the
cursor and changes nothing else; no fullness is detected, even by the push that fills the last slot. -/
def Obligations.PushWritesSampleAtCursor : Prop :=
  ∀ (s : State) (sample : Word32), s.port = .producer → s.err = false → s.idx.toNat < s.cfg.N →
    ∃ t, exec (.push sample) s = .next t ∧ t.idx.toNat = s.idx.toNat + 1 ∧
      (∀ j, cellAt t.mem.fifo j = if j = s.idx.toNat then some sample else cellAt s.mem.fifo j) ∧
      t.mem.tbuf = s.mem.tbuf ∧ t.mem.surf = s.mem.surf ∧ t.ready = s.ready ∧ t.cfg = s.cfg ∧
      t.rendered = s.rendered ∧ t.err = s.err ∧ t.ecode = s.ecode ∧ s.answered t []

/-- 40_fifo.md R142, R144, R145: a push that finds the Fifo full and the flag clear transfers the block
over a zero-filled Transform Buffer, sets the flag, and writes its own sample in slot 0. That a Fifo slot
nothing has written, which the invariant rules out here, transfers the free value of the draw is the
model's choice (log entry 4). -/
def Obligations.PushOnFullTransfersBlock : Prop :=
  ∀ (s : State) (sample : Word32), s.port = .producer → s.err = false → s.idx.toNat = s.cfg.N →
    s.ready = false →
    ∃ t, exec (.push sample) s = .next t ∧ t.idx = 1 ∧ t.ready = true ∧
      (∀ j, j < s.cfg.N → ∀ v, cellAt s.mem.fifo j = some v → cellAt t.mem.tbuf j = some v) ∧
      (∀ j, j < s.cfg.N → cellAt s.mem.fifo j = none →
        cellAt t.mem.tbuf j = some (Config.freeWord s.draws j)) ∧
      (∀ j, s.cfg.N ≤ j → j < 2 * s.cfg.N → cellAt t.mem.tbuf j = some 0x00000000) ∧
      (∀ j, 2 * s.cfg.N ≤ j → cellAt t.mem.tbuf j = none) ∧
      (∀ j, cellAt t.mem.fifo j = if j = 0 then some sample else cellAt s.mem.fifo j) ∧
      t.mem.surf = s.mem.surf ∧ t.cfg = s.cfg ∧ t.rendered = s.rendered ∧ t.err = s.err ∧
      t.ecode = s.ecode ∧ s.answered t []

/-- 40_fifo.md R143, R144: a push that finds the Fifo full and the flag set drops the block: no part of the
transfer happens, no bit is set, and its own sample goes in slot 0. -/
def Obligations.PushOnFullDropsBlock : Prop :=
  ∀ (s : State) (sample : Word32), s.port = .producer → s.err = false → s.idx.toNat = s.cfg.N →
    s.ready = true →
    ∃ t, exec (.push sample) s = .next t ∧ t.idx = 1 ∧ t.ready = true ∧
      (∀ j, cellAt t.mem.fifo j = if j = 0 then some sample else cellAt s.mem.fifo j) ∧
      t.mem.tbuf = s.mem.tbuf ∧ t.mem.surf = s.mem.surf ∧ t.cfg = s.cfg ∧ t.rendered = s.rendered ∧
      t.err = s.err ∧ t.ecode = s.ecode ∧ s.answered t []

/-- The model's own stop (log entry 9): a push stops in a fault exactly when it would run with the cursor
above `N`, which 10_state.md R33 rules out; no other command ever stops. -/
def Obligations.OnlyACursorAboveNStops : Prop :=
  ∀ (s : State) (i : Instr),
    (exec i s = .fault .fifoIndexOutOfRange ↔
      i.opcode = .push ∧ s.port = .producer ∧ s.err = false ∧ s.cfg.N < s.idx.toNat) ∧
    (¬ (i.opcode = .push ∧ s.port = .producer ∧ s.err = false ∧ s.cfg.N < s.idx.toNat) →
      ∃ t, exec i s = .next t)

/-- 60_exceptions.md R270, 40_fifo.md R148: from a state that meets the invariant no step stops. -/
def Obligations.StepNeverStops : Prop :=
  ∀ s : State, s.Inv → ∃ t, step s = .next t

/-- 40_fifo.md R146: after any run of commands without faults from a cursor of 0, the cursor is given by
the number of pushes alone. -/
def Obligations.CursorClosedForm : Prop :=
  ∀ (s : State) (cs : List (Port × Instr)), s.idx = 0 → s.err = false →
    (∀ e ∈ cs, e.2.wellFormed e.1 s.cfg = true) →
    ∃ t, Sys2Proof.Claims.issue cs s = some t ∧ t.err = false ∧
      t.idx.toNat =
        (let p := cs.countP (fun e => e.2.opcode == .push)
         if p = 0 then 0 else (p - 1) % s.cfg.N + 1)

/-- 40_fifo.md R141 to R147 (95_test_vectors.md S1): with no tick, after `N + 1` or more pushes the
Transform Buffer holds the first block over zeros, the flag is set, and every later block is dropped. -/
def Obligations.FirstBlockWaitsForTheTick : Prop :=
  ∀ (s : State) (samples : List Word32), s.idx = 0 → s.ready = false → s.err = false →
    s.cfg.N + 1 ≤ samples.length →
    ∃ t, Sys2Proof.Claims.issue (samples.map (fun w => (Port.producer, Instr.push w))) s = some t ∧
      t.ready = true ∧ t.err = false ∧
      (∀ j, j < s.cfg.N → cellAt t.mem.tbuf j = samples[j]?) ∧
      (∀ j, s.cfg.N ≤ j → j < 2 * s.cfg.N → cellAt t.mem.tbuf j = some 0x00000000)

/-- 44_tick.md R221: a tick on a clear flag changes nothing at all, halted or not. -/
def Obligations.TickNotReadyChangesNothing : Prop :=
  ∀ s : State, s.port = .consumer → s.ready = false → exec .tick s = .next s

/-- 44_tick.md R222, 41_transform.md R160: a tick on a set flag leaves the transform of the whole Transform
Buffer in it, paints the whole surface, sets `rendered`, clears the flag and changes nothing else. The
transform of a block that is not finite is a free value of the draw (log entry 5). -/
def Obligations.TickReadyTransformsAndConsumes : Prop :=
  ∀ s : State, s.port = .consumer → s.err = false → s.ready = true →
    ∃ t, exec .tick s = .next t ∧ t.ready = false ∧ t.rendered = true ∧
      (∀ j, cellAt t.mem.tbuf j =
        if j < 2 * s.cfg.N then
          some (transformWord s.cfg s.draws ((List.range (2 * s.cfg.N)).map (readTbuf s)) j)
        else none) ∧
      (∀ j, (cellAt t.mem.surf j).isSome = true ↔ j < s.cfg.W * s.cfg.H) ∧
      t.mem.fifo = s.mem.fifo ∧ t.idx = s.idx ∧ t.cfg = s.cfg ∧ t.err = s.err ∧ t.ecode = s.ecode ∧
      s.answered t []

/-- 42_render.md R186: the frame a tick leaves, pixel by pixel, from the spectrum alone. -/
def Obligations.TickPaintsClosedFormFrame : Prop :=
  ∀ s : State, s.port = .consumer → s.err = false → s.ready = true →
    ∃ t, exec .tick s = .next t ∧
      ∀ px py, px < s.cfg.W → py < s.cfg.H →
        ((∃ i, i < s.cfg.N ∧ xPos s.cfg i < s.cfg.W ∧
            ∃ wi, wi = min (magMap s.cfg (Sys2Proof.Claims.spectrum s i)) (s.cfg.W - xPos s.cfg i) ∧
              1 ≤ wi ∧ xPos s.cfg i ≤ px ∧ px ≤ xPos s.cfg i + wi - 1 ∧
              (py = 0 ∨ py = s.cfg.H - 1 ∨ px = xPos s.cfg i ∨ px = xPos s.cfg i + wi - 1)) →
          cellAt t.mem.surf (py * s.cfg.W + px) = some 0xFF0000) ∧
        ((¬ ∃ i, i < s.cfg.N ∧ xPos s.cfg i < s.cfg.W ∧
            ∃ wi, wi = min (magMap s.cfg (Sys2Proof.Claims.spectrum s i)) (s.cfg.W - xPos s.cfg i) ∧
              1 ≤ wi ∧ xPos s.cfg i ≤ px ∧ px ≤ xPos s.cfg i + wi - 1 ∧
              (py = 0 ∨ py = s.cfg.H - 1 ∨ px = xPos s.cfg i ∨ px = xPos s.cfg i + wi - 1)) →
          cellAt t.mem.surf (py * s.cfg.W + px) = some 0x000000)

/-- The loop of 42_render.md R180, from any surface in canonical form, leaves the surface that `RENDER`
leaves in the closed form of R186 (log entry 12). -/
def Obligations.RenderLoopPaintsClosedForm : Prop :=
  ∀ (s : State), s.mem.wf s.cfg = true →
    paintLoop s.cfg (readTbuf s) s.mem.surf = (renderFrame s).mem.surf

/-- 42_render.md R190, 41_transform.md R163: what a render paints does not depend on the scratch half, nor
on the old surface, the Fifo, the cursor or the flag. -/
def Obligations.ScratchIsNeverRendered : Prop :=
  ∀ s u : State, s.cfg = u.cfg → (∀ j, j < s.cfg.N → readTbuf s j = readTbuf u j) →
    (renderFrame s).mem.surf = (renderFrame u).mem.surf

/-- 41_transform.md R161(b), for every engine but the stub of R165: on a block of finite words a tick
leaves non-negative magnitudes. The library's limit is the model's encoding of the rule (log entry 5);
which words are finite, and that `+0.0` and positive values are the words up to `0x7F800000`, is the
presumed binary32 layout (log entry 6). -/
def Obligations.TickLeavesMagnitudes : Prop :=
  ∀ s : State, s.port = .consumer → s.err = false → s.ready = true → s.cfg.engine ≠ .testIdentity →
    (∀ j, j < 2 * s.cfg.N → floatIsFinite (readTbuf s j) = true) →
    ∃ t, exec .tick s = .next t ∧
      ∀ k, k < s.cfg.N → ∃ u, cellAt t.mem.tbuf k = some u ∧ u.toNat ≤ 0x7F800000

/-- 42_render.md R183 and 00_scope.md R12: `MAGMAP` lies in `[0, W]`, and the default reads the magnitude
as binary32 and truncates it. The layout of the word is presumed (log entry 6), and that a custom policy
is held to `[0, W]` is the model's encoding of R12 (log entry 7). -/
def Obligations.MagMapCountsWholePixels : Prop :=
  ∀ (c : Config) (m : Word32), magMap c m ≤ c.W ∧
    (c.magPolicy = .truncate →
      (m.toNat / 2 ^ 23 % 2 ^ 8 = 255 → m.toNat % 2 ^ 23 ≠ 0 → magMap c m = 0) ∧
      (m = 0x7F800000 → magMap c m = c.W) ∧ (m = 0xFF800000 → magMap c m = 0) ∧
      (m.toNat / 2 ^ 23 % 2 ^ 8 ≠ 255 →
        (Sys2Proof.Claims.binary32Value m ≤ 0 → magMap c m = 0) ∧
        ((c.W : ℚ) ≤ Sys2Proof.Claims.binary32Value m → magMap c m = c.W) ∧
        (0 < Sys2Proof.Claims.binary32Value m → Sys2Proof.Claims.binary32Value m < c.W →
          (magMap c m : ℤ) = ⌊Sys2Proof.Claims.binary32Value m⌋)))

/-- 42_render.md R182 and R187: the left edges, and the bins that are off the screen. -/
def Obligations.LeftEdgesAndOffScreenBins : Prop :=
  ∀ (c : Config) (i : Nat),
    (c.xMode = .realFloor → xPos c i * c.B ≤ i * c.W ∧ i * c.W < (xPos c i + 1) * c.B) ∧
    (c.xMode = .intDiv → xPos c i = i / c.B * c.W ∧ (i < c.B → xPos c i = 0)) ∧
    xPos c 0 = 0 ∧ xPos c i ≤ xPos c (i + 1) ∧ (c.W ≤ xPos c i ↔ c.B ≤ i) ∧
    (c.B ≤ i → ∀ m px py, binColours c i m px py = false)

/-- 45_readout.md R240: a pixel in range is answered in bits [23:0] of one word, and nothing else changes;
before the first render it is a free value (R247, log entry 4). -/
def Obligations.RdPixelAnswersThePixel : Prop :=
  ∀ (s : State) (x y : BitVec 16), s.port = .reader → s.err = false → x.toNat < s.cfg.W →
    y.toNat < s.cfg.H →
    ∃ t p, exec (.rdPixel x y) s = .next t ∧ s.sameBlock t ∧ s.answered t [(0 : BitVec 8) ++ p] ∧
      (∀ q, cellAt s.mem.surf (y.toNat * s.cfg.W + x.toNat) = some q → p = q) ∧
      (cellAt s.mem.surf (y.toNat * s.cfg.W + x.toNat) = none →
        p = Config.freePixel s.draws (y.toNat * s.cfg.W + x.toNat))

/-- 45_readout.md R241: the whole surface of one state, word number `y*W + x` the pixel `(x, y)`, and
nothing else changes; before the first render each word is a free value (R247, log entry 4). -/
def Obligations.RdSurfaceAnswersOneFrame : Prop :=
  ∀ s : State, s.port = .reader → s.err = false →
    ∃ t ws, exec .rdSurface s = .next t ∧ s.sameBlock t ∧ s.answered t ws ∧
      ws.length = s.cfg.W * s.cfg.H ∧
      ∀ x y, x < s.cfg.W → y < s.cfg.H →
        ∃ p, ws[y * s.cfg.W + x]? = some ((0 : BitVec 8) ++ p) ∧
          (∀ q, cellAt s.mem.surf (y * s.cfg.W + x) = some q → p = q) ∧
          (cellAt s.mem.surf (y * s.cfg.W + x) = none → p = Config.freePixel s.draws (y * s.cfg.W + x))

/-- 45_readout.md R242: an entry in range is answered, and nothing else changes; before the first transfer
it is a free value (10_state.md R49, log entry 4). -/
def Obligations.RdTbufAnswersTheEntry : Prop :=
  ∀ (s : State) (tidx : BitVec 16), s.port = .consumer → s.err = false → tidx.toNat < 2 * s.cfg.N →
    ∃ t v, exec (.rdTbuf tidx) s = .next t ∧ s.sameBlock t ∧ s.answered t [v] ∧
      (∀ q, cellAt s.mem.tbuf tidx.toNat = some q → v = q) ∧
      (cellAt s.mem.tbuf tidx.toNat = none → v = Config.freeWord s.draws tidx.toNat)

/-- 10_state.md R41, 45_readout.md R243: the STATUS word field by field, on every port, halted or not. -/
def Obligations.RdStatusAnswersTheStatusWord : Prop :=
  ∀ s : State, ∃ t v, exec .rdStatus s = .next t ∧ s.sameBlock t ∧ s.answered t [v] ∧
    v.extractLsb' 16 16 = s.idx ∧ v.extractLsb' 8 8 = 0 ∧ v.extractLsb' 4 4 = s.ecode ∧
    v.getLsbD 3 = false ∧ v.getLsbD 2 = s.err ∧ v.getLsbD 1 = s.rendered ∧ v.getLsbD 0 = s.ready

/-- 10_state.md R42, 45_readout.md R244: the parameter each selector answers, whole, on every port, halted
or not. -/
def Obligations.RdConfigAnswersTheParameter : Prop :=
  ∀ (s : State) (sel : BitVec 8), sel.toNat ≤ 5 →
    ∃ t v, exec (.rdConfig sel) s = .next t ∧ s.sameBlock t ∧ s.answered t [v] ∧
      (sel = 0 → v.toNat = s.cfg.N) ∧ (sel = 1 → v.toNat = s.cfg.W) ∧ (sel = 2 → v.toNat = s.cfg.H) ∧
      (sel = 3 → v.toNat = s.cfg.B) ∧
      (sel = 4 → v.toNat = match s.cfg.xMode with | .realFloor => 0 | .intDiv => 1) ∧
      (sel = 5 → v.toNat = 1)

/-- 45_readout.md R245: `NOP` changes nothing, on every port, halted or not. -/
def Obligations.NopChangesNothing : Prop :=
  ∀ s : State, exec .nop s = .next s

/-- 20_memory.md R76: no command but `PUSH` and `TICK` changes any state of the block, unless by a fault,
which changes `err` and `ecode` alone. -/
def Obligations.ReadsChangeNoState : Prop :=
  ∀ (s t : State) (i : Instr), i.opcode ≠ .push → i.opcode ≠ .tick → exec i s = .next t →
    t.cfg = s.cfg ∧ t.mem = s.mem ∧ t.idx = s.idx ∧ t.ready = s.ready ∧ t.rendered = s.rendered ∧
    (i.wellFormed s.port s.cfg = true → t.err = s.err ∧ t.ecode = s.ecode)

/-- 43_gate.md R212: the only steps that change the flag. -/
def Obligations.ReadyChangesOnlyByTransferTickReset : Prop :=
  (∀ s t : State, s.rst = true → step s = .next t → t.ready = false) ∧
  ∀ s t : State, s.rst = false → step s = .next t → t.ready ≠ s.ready →
    ∃ p w i, servedPort s = some p ∧ (s.cmds.get p).head? = some w ∧ decode w = .ok i ∧ s.err = false ∧
      ((i.opcode = .push ∧ p = .producer ∧ s.idx.toNat = s.cfg.N ∧ s.ready = false ∧ t.ready = true) ∨
        (i = .tick ∧ p = .consumer ∧ s.ready = true ∧ t.ready = false))

/-- 44_tick.md R223: only a `TICK`, and only on a set flag, writes the surface. -/
def Obligations.OnlyTickWritesTheSurface : Prop :=
  ∀ s t : State, s.rst = false → step s = .next t → t.mem.surf ≠ s.mem.surf →
    ∃ w, servedPort s = some .consumer ∧ (s.cmds.get .consumer).head? = some w ∧ decode w = .ok .tick ∧
      s.ready = true ∧ s.err = false

/-- 20_memory.md R83, 10_state.md R43: while the flag is set no push writes the Transform Buffer, and no
step at all changes it until the step that clears the flag. -/
def Obligations.ReadyBlockIsNeverOverwritten : Prop :=
  (∀ (s t : State) (sample : Word32), s.ready = true → exec (.push sample) s = .next t →
    t.mem.tbuf = s.mem.tbuf ∧ t.ready = true) ∧
  ∀ s t : State, s.rst = false → s.ready = true → t.ready = true → step s = .next t →
    t.mem.tbuf = s.mem.tbuf

/-- 10_state.md R33, R34: only a `PUSH` that runs on port P writes the cursor or the Fifo. -/
def Obligations.OnlyPushWritesCursorAndFifo : Prop :=
  ∀ s t : State, s.rst = false → step s = .next t → (t.idx ≠ s.idx ∨ t.mem.fifo ≠ s.mem.fifo) →
    ∃ w sample, servedPort s = some .producer ∧ (s.cmds.get .producer).head? = some w ∧
      decode w = .ok (.push sample) ∧ s.err = false

/-- 20_memory.md R86: a push while the flag is set touches only the Fifo and the cursor, which a tick
neither reads nor writes; ordered before the tick it changes nothing of what the tick does. The two ticks
are compared at one draw number, so at the same free values where the Transform Buffer is not written or
not finite: that they agree there is the model's choice (log entries 4 and 5), no part of R86; `FiniteTickIsAFunctionOfItsBlock` compares ticks at any two. -/
def Obligations.PushDuringTickIsPushBeforeTick : Prop :=
  ∀ (s : State) (sample : Word32), s.err = false → s.ready = true → s.idx.toNat ≤ s.cfg.N →
    ∃ a b c, exec (.push sample) (onPort .producer s) = .next a ∧
      exec .tick (onPort .consumer a) = .next b ∧ exec .tick (onPort .consumer s) = .next c ∧
      (a.mem.tbuf = s.mem.tbuf ∧ a.mem.surf = s.mem.surf ∧ a.ready = s.ready ∧ a.rendered = s.rendered ∧
        a.err = s.err ∧ a.ecode = s.ecode ∧ a.cfg = s.cfg) ∧
      (c.mem.fifo = s.mem.fifo ∧ c.idx = s.idx ∧ b.mem.fifo = a.mem.fifo ∧ b.idx = a.idx) ∧
      b.mem.tbuf = c.mem.tbuf ∧ b.mem.surf = c.mem.surf ∧ b.ready = c.ready ∧ b.rendered = c.rendered ∧
      b.err = c.err ∧ b.ecode = c.ecode ∧ b.cfg = c.cfg

/-- 70_reset_and_hazards.md R306: port P accepts every command offered, whatever is in progress, behind the
commands it accepted before; only an asserted reset (R301) prevents it. -/
def Obligations.PortPNeverStalls : Prop :=
  ∀ (s : State) (a : Activity) (stall : Bool) (w : Command), s.rst = false →
    (offerCommand a stall .producer w s).cmds.get .producer = s.cmds.get .producer ++ [w] ∧
    s.sameBlock (offerCommand a stall .producer w s) ∧
    (∀ p, p ≠ .producer → (offerCommand a stall .producer w s).cmds.get p = s.cmds.get p) ∧
    (offerCommand a stall .producer w s).resps = s.resps

/-- 30_encoding.md R110: a literal that does not fit its field is refused and one that fits is kept whole;
a listing whose first line names no port is refused; every word assembled decodes. -/
def Obligations.AssemblerRefusesWideLiterals : Prop :=
  (∀ n, expandOp (.push n) =
    if n < 2 ^ 32 then .ok [.push (BitVec.ofNat 32 n)] else .error .literalTooWide) ∧
  (∀ n, expandOp (.rdTbuf n) =
    if n < 2 ^ 16 then .ok [.rdTbuf (BitVec.ofNat 16 n)] else .error .literalTooWide) ∧
  (∀ x y, expandOp (.rdPixel x y) =
    if x < 2 ^ 16 ∧ y < 2 ^ 16 then .ok [.rdPixel (BitVec.ofNat 16 x) (BitVec.ofNat 16 y)]
    else .error .literalTooWide) ∧
  (∀ n, expandOp (.rdConfig n) =
    if n < 2 ^ 8 then .ok [.rdConfig (BitVec.ofNat 8 n)] else .error .literalTooWide) ∧
  (∀ l ls, l.port = none → assemble none (l :: ls) = .error .noPort) ∧
  (∀ previous ls out, assemble previous ls = .ok out → ∀ e ∈ out, ∃ i, decode e.2 = .ok i)

/-- 00_scope.md R7 to R10, 93_implementation_defined.md U9, U17: parameters in the ranges give a
configuration with exactly those values; others are refused. -/
def Obligations.IllegalParametersAreRefused : Prop :=
  ∀ (n w h b x : Nat) (mag : MagPolicy) (eng : Engine) (tickMax : Nat),
    ((∃ k, k ≤ 15 ∧ n = 2 ^ k) ∧ 1 ≤ w ∧ w ≤ 65536 ∧ 1 ≤ h ∧ h ≤ 65536 ∧ 1 ≤ b ∧ b ≤ 2 ^ 32 - 1 ∧ x ≤ 1 →
      ∃ c, Config.ofParams n w h b x mag eng tickMax = .ok c ∧ c.N = n ∧ c.W = w ∧ c.H = h ∧ c.B = b ∧
        c.xModeCode = x) ∧
    (¬ ((∃ k, k ≤ 15 ∧ n = 2 ^ k) ∧ 1 ≤ w ∧ w ≤ 65536 ∧ 1 ≤ h ∧ h ≤ 65536 ∧ 1 ≤ b ∧ b ≤ 2 ^ 32 - 1 ∧
        x ≤ 1) →
      ∃ r, Config.ofParams n w h b x mag eng tickMax = .error r)

/-- 41_transform.md R161(a) and (d): on a written block of finite words the Transform Buffer and the frame that a
tick leaves are given by the parameters and the block alone: no free value, and nothing else of the state,
shows in them. Which words are finite is the presumed binary32 layout (log entry 6). -/
def Obligations.FiniteTickIsAFunctionOfItsBlock : Prop :=
  ∀ s u : State, s.port = .consumer → u.port = .consumer → s.err = false → u.err = false →
    s.ready = true → u.ready = true → s.cfg = u.cfg →
    (∀ j, j < 2 * s.cfg.N → ∃ v, cellAt s.mem.tbuf j = some v ∧ cellAt u.mem.tbuf j = some v ∧
      floatIsFinite v = true) →
    ∃ t r, exec .tick s = .next t ∧ exec .tick u = .next r ∧
      t.mem.tbuf = r.mem.tbuf ∧ t.mem.surf = r.mem.surf

/-- 93_implementation_defined.md U6: on a block with a word that is not finite, for every engine but the stub of
R165 (`StubTickLeavesTheBlock`), each of the `2N` words a tick leaves is the free value of the draw, which
nothing constrains (log entry 5). Which words are not finite is the presumed binary32 layout (log
entry 6). -/
def Obligations.NonFiniteTickLeavesFreeValues : Prop :=
  ∀ s : State, s.port = .consumer → s.err = false → s.ready = true → s.cfg.engine ≠ .testIdentity →
    (∃ j, j < 2 * s.cfg.N ∧ floatIsFinite (readTbuf s j) = false) →
    ∃ t, exec .tick s = .next t ∧ t.err = false ∧ t.ready = false ∧ t.rendered = true ∧
      ∀ j, j < 2 * s.cfg.N → cellAt t.mem.tbuf j =
        some (Config.freeTransformWord s.draws ((List.range (2 * s.cfg.N)).map (readTbuf s)) j)

/-- 41_transform.md R165: under the stub a tick leaves every written word of the Transform Buffer as it was,
finite or not, and drops none. -/
def Obligations.StubTickLeavesTheBlock : Prop :=
  ∀ s : State, s.port = .consumer → s.err = false → s.ready = true → s.cfg.engine = .testIdentity →
    ∃ t, exec .tick s = .next t ∧ t.ready = false ∧ t.rendered = true ∧
      ∀ j, j < 2 * s.cfg.N → ∀ v, cellAt s.mem.tbuf j = some v → cellAt t.mem.tbuf j = some v

/-- 44_tick.md R224 and 70_reset_and_hazards.md R307: port C of a running block accepts no command while a `TICK`
is in progress, be it one accepted and not yet executed or one that an implementation is still at; with none,
or in a halted block, and no reset asserted, port C accepts whatever the implementation would like; the
withholding R307 allows ends with `TICK_MAX_CYCLES`. That R224 is followed for a `TICK` still in progress at
or past that bound, which no implementation has (log entry 13), and 60_exceptions.md R273 for one still in
progress in a block that has since halted, is the model's choice (log entry 17), as is what counts as in
progress. -/
def Obligations.PortCWaitsForTheTick : Prop :=
  (∀ (s : State) (a : Activity) (stall : Bool) (w : Command),
    s.err = false → (a.tickCycles ≠ none ∨ ∃ v ∈ s.cmds.get .consumer, decode v = .ok .tick) →
    offerCommand a stall .consumer w s = s) ∧
  (∀ (s : State) (a : Activity) (stall : Bool) (w : Command), s.rst = false →
    (s.err = true ∨ (a.tickCycles = none ∧ ∀ v ∈ s.cmds.get .consumer, decode v ≠ .ok .tick)) →
    (offerCommand a stall .consumer w s).cmds.get .consumer = s.cmds.get .consumer ++ [w] ∧
    s.sameBlock (offerCommand a stall .consumer w s) ∧
    (∀ p, p ≠ .consumer → (offerCommand a stall .consumer w s).cmds.get p = s.cmds.get p) ∧
    (offerCommand a stall .consumer w s).resps = s.resps) ∧
  ∀ (c : Config) (a : Activity), mayWithhold c .consumer a = true ↔
    ∃ k, a.tickCycles = some k ∧ k < c.tickMaxCycles

/-- 44_tick.md R224: that no command waits on port C of a running block behind a `TICK` holds after reset, and
offering commands, delivering responses, asserting reset and stepping all keep it (log entry 17). -/
def Obligations.NothingWaitsBehindATick : Prop :=
  State.reset.tickIsLast ∧
  (∀ (s : State) (a : Activity) (stall : Bool) (p : Port) (w : Command), s.tickIsLast →
    (offerCommand a stall p w s).tickIsLast) ∧
  (∀ (s t : State) (p : Port) (v : Word32), s.tickIsLast → deliverResponse p s = some (v, t) →
    t.tickIsLast) ∧
  (∀ s : State, s.tickIsLast → (assertReset s).tickIsLast) ∧
  ∀ s t : State, s.tickIsLast → step s = .next t → t.tickIsLast

/-- 60_exceptions.md R273: a halted block accepts every command on every port, behind the port's earlier ones,
whatever is in progress; only an asserted reset (70_reset_and_hazards.md R301) prevents it. That this holds
too of what began before the fault, where R224, R307 and R308 name no halted state, is the model's choice (log
entry 17). -/
def Obligations.HaltedBlockKeepsEveryPortFree : Prop :=
  ∀ (s : State) (a : Activity) (stall : Bool) (p : Port) (w : Command), s.err = true → s.rst = false →
    (offerCommand a stall p w s).cmds.get p = s.cmds.get p ++ [w] ∧
    s.sameBlock (offerCommand a stall p w s) ∧
    (∀ q, q ≠ p → (offerCommand a stall p w s).cmds.get q = s.cmds.get q) ∧
    (offerCommand a stall p w s).resps = s.resps

/-- 70_reset_and_hazards.md R308: port R of a running block may withhold acceptance while a `TICK` or an
`RD_SURFACE` is in progress, and then nothing changes; otherwise, and with no reset asserted, it accepts. -/
def Obligations.PortRWaitsOnlyForATickOrASurfaceRead : Prop :=
  (∀ (s : State) (a : Activity) (w : Command), s.err = false →
    (a.tickCycles ≠ none ∨ a.surfaceRead = true) → offerCommand a true .reader w s = s) ∧
  ∀ (s : State) (a : Activity) (stall : Bool) (w : Command), s.rst = false →
    (stall = false ∨ (a.tickCycles = none ∧ a.surfaceRead = false)) →
    (offerCommand a stall .reader w s).cmds.get .reader = s.cmds.get .reader ++ [w] ∧
    s.sameBlock (offerCommand a stall .reader w s) ∧
    (∀ q, q ≠ .reader → (offerCommand a stall .reader w s).cmds.get q = s.cmds.get q) ∧
    (offerCommand a stall .reader w s).resps = s.resps
end

