-- ==== Sys2Proof/Laws/Decode.lean ====
section
/-! SUPPORT. The fields of a word put together from its fields, and of ARG from its operands
(30_encoding.md R101, R102). -/

namespace Sys2Proof

@[simp] theorem opcField_append (a : BitVec 8) (b : BitVec 24) (c : Word32) :
    opcField (a ++ b ++ c : BitVec (8 + 24 + 32)) = a := by
  apply BitVec.eq_of_getLsbD_eq
  intro k hk
  simp only [opcField, BitVec.getLsbD_extractLsb', BitVec.getLsbD_append]
  simp [hk, show ¬ (56 + k < 32) by omega, show ¬ (56 + k - 32 < 24) by omega,
    show 56 + k - 32 - 24 = k by omega]

@[simp] theorem rsvField_append (a : BitVec 8) (b : BitVec 24) (c : Word32) :
    rsvField (a ++ b ++ c : BitVec (8 + 24 + 32)) = b := by
  apply BitVec.eq_of_getLsbD_eq
  intro k hk
  simp only [rsvField, BitVec.getLsbD_extractLsb', BitVec.getLsbD_append]
  simp [hk, show ¬ (32 + k < 32) by omega]

@[simp] theorem argField_append (a : BitVec 8) (b : BitVec 24) (c : Word32) :
    argField (a ++ b ++ c : BitVec (8 + 24 + 32)) = c := by
  apply BitVec.eq_of_getLsbD_eq
  intro k hk
  simp only [argField, BitVec.getLsbD_extractLsb', BitVec.getLsbD_append]
  simp [hk]

@[simp] theorem argHigh_append (y x : BitVec 16) : argHigh (y ++ x : BitVec (16 + 16)) = y := by
  apply BitVec.eq_of_getLsbD_eq
  intro k hk
  simp only [argHigh, BitVec.getLsbD_extractLsb', BitVec.getLsbD_append]
  simp [hk]

@[simp] theorem argLow_append (y x : BitVec 16) : argLow (y ++ x : BitVec (16 + 16)) = x := by
  apply BitVec.eq_of_getLsbD_eq
  intro k hk
  simp only [argLow, BitVec.getLsbD_extractLsb', BitVec.getLsbD_append]
  simp [hk]

@[simp] theorem argAboveSel_append (z : BitVec 24) (sel : BitVec 8) :
    argAboveSel (z ++ sel : BitVec (24 + 8)) = z := by
  apply BitVec.eq_of_getLsbD_eq
  intro k hk
  simp only [argAboveSel, BitVec.getLsbD_extractLsb', BitVec.getLsbD_append]
  simp [hk]

@[simp] theorem argSel_append (z : BitVec 24) (sel : BitVec 8) : argSel (z ++ sel : BitVec (24 + 8)) = sel := by
  apply BitVec.eq_of_getLsbD_eq
  intro k hk
  simp only [argSel, BitVec.getLsbD_extractLsb', BitVec.getLsbD_append]
  simp [hk]

/-- The opcode map reads back every assigned byte (R104). -/
@[simp] theorem opcodeOfByte_byte (op : Opcode) : opcodeOfByte op.byte = some op := by
  cases op <;> rfl

@[simp] theorem opcField_encode (i : Instr) : opcField (encode i) = i.opcode.byte := opcField_append _ _ _
@[simp] theorem rsvField_encode (i : Instr) : rsvField (encode i) = 0 := rsvField_append _ _ _
@[simp] theorem argField_encode (i : Instr) : argField (encode i) = i.arg := argField_append _ _ _

end Sys2Proof
end

