-- ==== Sys2Proof/Laws/State.lean ====
section
/-! SUPPORT. One lemma for each field of State under each named update, so that no proof unfolds a record
update; and what `PerPort.get` gives after `PerPort.set`. -/

namespace Sys2Proof.Machine

@[simp] theorem respond_cfg (ws : List Word32) (s : State) : (respond ws s).cfg = s.cfg := rfl
@[simp] theorem respond_mem (ws : List Word32) (s : State) : (respond ws s).mem = s.mem := rfl
@[simp] theorem respond_idx (ws : List Word32) (s : State) : (respond ws s).idx = s.idx := rfl
@[simp] theorem respond_ready (ws : List Word32) (s : State) : (respond ws s).ready = s.ready := rfl
@[simp] theorem respond_rendered (ws : List Word32) (s : State) : (respond ws s).rendered = s.rendered := rfl
@[simp] theorem respond_err (ws : List Word32) (s : State) : (respond ws s).err = s.err := rfl
@[simp] theorem respond_ecode (ws : List Word32) (s : State) : (respond ws s).ecode = s.ecode := rfl
@[simp] theorem respond_cmds (ws : List Word32) (s : State) : (respond ws s).cmds = s.cmds := rfl
@[simp] theorem respond_resps (ws : List Word32) (s : State) : (respond ws s).resps = s.resps.set s.port (s.resps.get s.port ++ ws) := rfl
@[simp] theorem respond_rst (ws : List Word32) (s : State) : (respond ws s).rst = s.rst := rfl
@[simp] theorem respond_port (ws : List Word32) (s : State) : (respond ws s).port = s.port := rfl
@[simp] theorem respond_draws (ws : List Word32) (s : State) : (respond ws s).draws = s.draws := rfl

@[simp] theorem writeFifo_cfg (s : State) (j : Nat) (v : Word32) : (writeFifo s j v).cfg = s.cfg := rfl
@[simp] theorem writeFifo_mem (s : State) (j : Nat) (v : Word32) : (writeFifo s j v).mem = { s.mem with fifo := cellWrite s.mem.fifo j v } := rfl
@[simp] theorem writeFifo_idx (s : State) (j : Nat) (v : Word32) : (writeFifo s j v).idx = s.idx := rfl
@[simp] theorem writeFifo_ready (s : State) (j : Nat) (v : Word32) : (writeFifo s j v).ready = s.ready := rfl
@[simp] theorem writeFifo_rendered (s : State) (j : Nat) (v : Word32) : (writeFifo s j v).rendered = s.rendered := rfl
@[simp] theorem writeFifo_err (s : State) (j : Nat) (v : Word32) : (writeFifo s j v).err = s.err := rfl
@[simp] theorem writeFifo_ecode (s : State) (j : Nat) (v : Word32) : (writeFifo s j v).ecode = s.ecode := rfl
@[simp] theorem writeFifo_cmds (s : State) (j : Nat) (v : Word32) : (writeFifo s j v).cmds = s.cmds := rfl
@[simp] theorem writeFifo_resps (s : State) (j : Nat) (v : Word32) : (writeFifo s j v).resps = s.resps := rfl
@[simp] theorem writeFifo_rst (s : State) (j : Nat) (v : Word32) : (writeFifo s j v).rst = s.rst := rfl
@[simp] theorem writeFifo_port (s : State) (j : Nat) (v : Word32) : (writeFifo s j v).port = s.port := rfl
@[simp] theorem writeFifo_draws (s : State) (j : Nat) (v : Word32) : (writeFifo s j v).draws = s.draws := rfl

@[simp] theorem setIdx_cfg (i : BitVec 16) (s : State) : (setIdx i s).cfg = s.cfg := rfl
@[simp] theorem setIdx_mem (i : BitVec 16) (s : State) : (setIdx i s).mem = s.mem := rfl
@[simp] theorem setIdx_idx (i : BitVec 16) (s : State) : (setIdx i s).idx = i := rfl
@[simp] theorem setIdx_ready (i : BitVec 16) (s : State) : (setIdx i s).ready = s.ready := rfl
@[simp] theorem setIdx_rendered (i : BitVec 16) (s : State) : (setIdx i s).rendered = s.rendered := rfl
@[simp] theorem setIdx_err (i : BitVec 16) (s : State) : (setIdx i s).err = s.err := rfl
@[simp] theorem setIdx_ecode (i : BitVec 16) (s : State) : (setIdx i s).ecode = s.ecode := rfl
@[simp] theorem setIdx_cmds (i : BitVec 16) (s : State) : (setIdx i s).cmds = s.cmds := rfl
@[simp] theorem setIdx_resps (i : BitVec 16) (s : State) : (setIdx i s).resps = s.resps := rfl
@[simp] theorem setIdx_rst (i : BitVec 16) (s : State) : (setIdx i s).rst = s.rst := rfl
@[simp] theorem setIdx_port (i : BitVec 16) (s : State) : (setIdx i s).port = s.port := rfl
@[simp] theorem setIdx_draws (i : BitVec 16) (s : State) : (setIdx i s).draws = s.draws := rfl

@[simp] theorem writeTbufAll_cfg (s : State) (f : Nat → Word32) : (writeTbufAll s f).cfg = s.cfg := rfl
@[simp] theorem writeTbufAll_mem (s : State) (f : Nat → Word32) : (writeTbufAll s f).mem = { s.mem with tbuf := fillCells (2 * s.cfg.N) f } := rfl
@[simp] theorem writeTbufAll_idx (s : State) (f : Nat → Word32) : (writeTbufAll s f).idx = s.idx := rfl
@[simp] theorem writeTbufAll_ready (s : State) (f : Nat → Word32) : (writeTbufAll s f).ready = s.ready := rfl
@[simp] theorem writeTbufAll_rendered (s : State) (f : Nat → Word32) : (writeTbufAll s f).rendered = s.rendered := rfl
@[simp] theorem writeTbufAll_err (s : State) (f : Nat → Word32) : (writeTbufAll s f).err = s.err := rfl
@[simp] theorem writeTbufAll_ecode (s : State) (f : Nat → Word32) : (writeTbufAll s f).ecode = s.ecode := rfl
@[simp] theorem writeTbufAll_cmds (s : State) (f : Nat → Word32) : (writeTbufAll s f).cmds = s.cmds := rfl
@[simp] theorem writeTbufAll_resps (s : State) (f : Nat → Word32) : (writeTbufAll s f).resps = s.resps := rfl
@[simp] theorem writeTbufAll_rst (s : State) (f : Nat → Word32) : (writeTbufAll s f).rst = s.rst := rfl
@[simp] theorem writeTbufAll_port (s : State) (f : Nat → Word32) : (writeTbufAll s f).port = s.port := rfl
@[simp] theorem writeTbufAll_draws (s : State) (f : Nat → Word32) : (writeTbufAll s f).draws = s.draws := rfl

@[simp] theorem writeSurfAll_cfg (s : State) (f : Nat → Pixel) : (writeSurfAll s f).cfg = s.cfg := rfl
@[simp] theorem writeSurfAll_mem (s : State) (f : Nat → Pixel) : (writeSurfAll s f).mem = { s.mem with surf := fillCells (s.cfg.W * s.cfg.H) f } := rfl
@[simp] theorem writeSurfAll_idx (s : State) (f : Nat → Pixel) : (writeSurfAll s f).idx = s.idx := rfl
@[simp] theorem writeSurfAll_ready (s : State) (f : Nat → Pixel) : (writeSurfAll s f).ready = s.ready := rfl
@[simp] theorem writeSurfAll_rendered (s : State) (f : Nat → Pixel) : (writeSurfAll s f).rendered = s.rendered := rfl
@[simp] theorem writeSurfAll_err (s : State) (f : Nat → Pixel) : (writeSurfAll s f).err = s.err := rfl
@[simp] theorem writeSurfAll_ecode (s : State) (f : Nat → Pixel) : (writeSurfAll s f).ecode = s.ecode := rfl
@[simp] theorem writeSurfAll_cmds (s : State) (f : Nat → Pixel) : (writeSurfAll s f).cmds = s.cmds := rfl
@[simp] theorem writeSurfAll_resps (s : State) (f : Nat → Pixel) : (writeSurfAll s f).resps = s.resps := rfl
@[simp] theorem writeSurfAll_rst (s : State) (f : Nat → Pixel) : (writeSurfAll s f).rst = s.rst := rfl
@[simp] theorem writeSurfAll_port (s : State) (f : Nat → Pixel) : (writeSurfAll s f).port = s.port := rfl
@[simp] theorem writeSurfAll_draws (s : State) (f : Nat → Pixel) : (writeSurfAll s f).draws = s.draws := rfl

@[simp] theorem markConsumed_cfg (s : State) : (markConsumed s).cfg = s.cfg := rfl
@[simp] theorem markConsumed_mem (s : State) : (markConsumed s).mem = s.mem := rfl
@[simp] theorem markConsumed_idx (s : State) : (markConsumed s).idx = s.idx := rfl
@[simp] theorem markConsumed_ready (s : State) : (markConsumed s).ready = false := rfl
@[simp] theorem markConsumed_rendered (s : State) : (markConsumed s).rendered = s.rendered := rfl
@[simp] theorem markConsumed_err (s : State) : (markConsumed s).err = s.err := rfl
@[simp] theorem markConsumed_ecode (s : State) : (markConsumed s).ecode = s.ecode := rfl
@[simp] theorem markConsumed_cmds (s : State) : (markConsumed s).cmds = s.cmds := rfl
@[simp] theorem markConsumed_resps (s : State) : (markConsumed s).resps = s.resps := rfl
@[simp] theorem markConsumed_rst (s : State) : (markConsumed s).rst = s.rst := rfl
@[simp] theorem markConsumed_port (s : State) : (markConsumed s).port = s.port := rfl
@[simp] theorem markConsumed_draws (s : State) : (markConsumed s).draws = s.draws := rfl

@[simp] theorem setReady_cfg (s : State) : (setReady s).cfg = s.cfg := rfl
@[simp] theorem setReady_mem (s : State) : (setReady s).mem = s.mem := rfl
@[simp] theorem setReady_idx (s : State) : (setReady s).idx = s.idx := rfl
@[simp] theorem setReady_ready (s : State) : (setReady s).ready = true := rfl
@[simp] theorem setReady_rendered (s : State) : (setReady s).rendered = s.rendered := rfl
@[simp] theorem setReady_err (s : State) : (setReady s).err = s.err := rfl
@[simp] theorem setReady_ecode (s : State) : (setReady s).ecode = s.ecode := rfl
@[simp] theorem setReady_cmds (s : State) : (setReady s).cmds = s.cmds := rfl
@[simp] theorem setReady_resps (s : State) : (setReady s).resps = s.resps := rfl
@[simp] theorem setReady_rst (s : State) : (setReady s).rst = s.rst := rfl
@[simp] theorem setReady_port (s : State) : (setReady s).port = s.port := rfl
@[simp] theorem setReady_draws (s : State) : (setReady s).draws = s.draws := rfl

@[simp] theorem setRendered_cfg (s : State) : (setRendered s).cfg = s.cfg := rfl
@[simp] theorem setRendered_mem (s : State) : (setRendered s).mem = s.mem := rfl
@[simp] theorem setRendered_idx (s : State) : (setRendered s).idx = s.idx := rfl
@[simp] theorem setRendered_ready (s : State) : (setRendered s).ready = s.ready := rfl
@[simp] theorem setRendered_rendered (s : State) : (setRendered s).rendered = true := rfl
@[simp] theorem setRendered_err (s : State) : (setRendered s).err = s.err := rfl
@[simp] theorem setRendered_ecode (s : State) : (setRendered s).ecode = s.ecode := rfl
@[simp] theorem setRendered_cmds (s : State) : (setRendered s).cmds = s.cmds := rfl
@[simp] theorem setRendered_resps (s : State) : (setRendered s).resps = s.resps := rfl
@[simp] theorem setRendered_rst (s : State) : (setRendered s).rst = s.rst := rfl
@[simp] theorem setRendered_port (s : State) : (setRendered s).port = s.port := rfl
@[simp] theorem setRendered_draws (s : State) : (setRendered s).draws = s.draws := rfl

@[simp] theorem onPort_cfg (p : Port) (s : State) : (onPort p s).cfg = s.cfg := rfl
@[simp] theorem onPort_mem (p : Port) (s : State) : (onPort p s).mem = s.mem := rfl
@[simp] theorem onPort_idx (p : Port) (s : State) : (onPort p s).idx = s.idx := rfl
@[simp] theorem onPort_ready (p : Port) (s : State) : (onPort p s).ready = s.ready := rfl
@[simp] theorem onPort_rendered (p : Port) (s : State) : (onPort p s).rendered = s.rendered := rfl
@[simp] theorem onPort_err (p : Port) (s : State) : (onPort p s).err = s.err := rfl
@[simp] theorem onPort_ecode (p : Port) (s : State) : (onPort p s).ecode = s.ecode := rfl
@[simp] theorem onPort_cmds (p : Port) (s : State) : (onPort p s).cmds = s.cmds := rfl
@[simp] theorem onPort_resps (p : Port) (s : State) : (onPort p s).resps = s.resps := rfl
@[simp] theorem onPort_rst (p : Port) (s : State) : (onPort p s).rst = s.rst := rfl
@[simp] theorem onPort_port (p : Port) (s : State) : (onPort p s).port = p := rfl
@[simp] theorem onPort_draws (p : Port) (s : State) : (onPort p s).draws = s.draws := rfl

@[simp] theorem takeCommand_cfg (s : State) (p : Port) : (takeCommand s p).cfg = s.cfg := rfl
@[simp] theorem takeCommand_mem (s : State) (p : Port) : (takeCommand s p).mem = s.mem := rfl
@[simp] theorem takeCommand_idx (s : State) (p : Port) : (takeCommand s p).idx = s.idx := rfl
@[simp] theorem takeCommand_ready (s : State) (p : Port) : (takeCommand s p).ready = s.ready := rfl
@[simp] theorem takeCommand_rendered (s : State) (p : Port) : (takeCommand s p).rendered = s.rendered := rfl
@[simp] theorem takeCommand_err (s : State) (p : Port) : (takeCommand s p).err = s.err := rfl
@[simp] theorem takeCommand_ecode (s : State) (p : Port) : (takeCommand s p).ecode = s.ecode := rfl
@[simp] theorem takeCommand_cmds (s : State) (p : Port) : (takeCommand s p).cmds = s.cmds.set p ((s.cmds.get p).drop 1) := rfl
@[simp] theorem takeCommand_resps (s : State) (p : Port) : (takeCommand s p).resps = s.resps := rfl
@[simp] theorem takeCommand_rst (s : State) (p : Port) : (takeCommand s p).rst = s.rst := rfl
@[simp] theorem takeCommand_port (s : State) (p : Port) : (takeCommand s p).port = p := rfl
@[simp] theorem takeCommand_draws (s : State) (p : Port) : (takeCommand s p).draws = s.draws := rfl

@[simp] theorem drawNext_cfg (d : Nat) (s : State) : (drawNext d s).cfg = s.cfg := rfl
@[simp] theorem drawNext_mem (d : Nat) (s : State) : (drawNext d s).mem = s.mem := rfl
@[simp] theorem drawNext_idx (d : Nat) (s : State) : (drawNext d s).idx = s.idx := rfl
@[simp] theorem drawNext_ready (d : Nat) (s : State) : (drawNext d s).ready = s.ready := rfl
@[simp] theorem drawNext_rendered (d : Nat) (s : State) : (drawNext d s).rendered = s.rendered := rfl
@[simp] theorem drawNext_err (d : Nat) (s : State) : (drawNext d s).err = s.err := rfl
@[simp] theorem drawNext_ecode (d : Nat) (s : State) : (drawNext d s).ecode = s.ecode := rfl
@[simp] theorem drawNext_cmds (d : Nat) (s : State) : (drawNext d s).cmds = s.cmds := rfl
@[simp] theorem drawNext_resps (d : Nat) (s : State) : (drawNext d s).resps = s.resps := rfl
@[simp] theorem drawNext_rst (d : Nat) (s : State) : (drawNext d s).rst = s.rst := rfl
@[simp] theorem drawNext_port (d : Nat) (s : State) : (drawNext d s).port = Config.grant (d + 1) := rfl
@[simp] theorem drawNext_draws (d : Nat) (s : State) : (drawNext d s).draws = d + 1 := rfl

@[simp] theorem assertReset_cfg (s : State) : (assertReset s).cfg = s.cfg := rfl
@[simp] theorem assertReset_mem (s : State) : (assertReset s).mem = s.mem := rfl
@[simp] theorem assertReset_idx (s : State) : (assertReset s).idx = s.idx := rfl
@[simp] theorem assertReset_ready (s : State) : (assertReset s).ready = s.ready := rfl
@[simp] theorem assertReset_rendered (s : State) : (assertReset s).rendered = s.rendered := rfl
@[simp] theorem assertReset_err (s : State) : (assertReset s).err = s.err := rfl
@[simp] theorem assertReset_ecode (s : State) : (assertReset s).ecode = s.ecode := rfl
@[simp] theorem assertReset_cmds (s : State) : (assertReset s).cmds = s.cmds := rfl
@[simp] theorem assertReset_resps (s : State) : (assertReset s).resps = s.resps := rfl
@[simp] theorem assertReset_rst (s : State) : (assertReset s).rst = true := rfl
@[simp] theorem assertReset_port (s : State) : (assertReset s).port = s.port := rfl
@[simp] theorem assertReset_draws (s : State) : (assertReset s).draws = s.draws := rfl

@[simp] theorem raiseFault_cfg (k : FaultCode) (n : Nat) (s : State) : (raiseFault k n s).cfg = s.cfg := by
  unfold raiseFault; split <;> simp_all
@[simp] theorem raiseFault_mem (k : FaultCode) (n : Nat) (s : State) : (raiseFault k n s).mem = s.mem := by
  unfold raiseFault; split <;> simp_all
@[simp] theorem raiseFault_idx (k : FaultCode) (n : Nat) (s : State) : (raiseFault k n s).idx = s.idx := by
  unfold raiseFault; split <;> simp_all
@[simp] theorem raiseFault_ready (k : FaultCode) (n : Nat) (s : State) : (raiseFault k n s).ready = s.ready := by
  unfold raiseFault; split <;> simp_all
@[simp] theorem raiseFault_rendered (k : FaultCode) (n : Nat) (s : State) : (raiseFault k n s).rendered = s.rendered := by
  unfold raiseFault; split <;> simp_all
@[simp] theorem raiseFault_err (k : FaultCode) (n : Nat) (s : State) : (raiseFault k n s).err = true := by
  unfold raiseFault; split <;> simp_all
@[simp] theorem raiseFault_ecode (k : FaultCode) (n : Nat) (s : State) : (raiseFault k n s).ecode = if s.err then s.ecode else k.code := by
  unfold raiseFault; split <;> simp_all
@[simp] theorem raiseFault_cmds (k : FaultCode) (n : Nat) (s : State) : (raiseFault k n s).cmds = s.cmds := by
  unfold raiseFault; split <;> simp_all
@[simp] theorem raiseFault_resps (k : FaultCode) (n : Nat) (s : State) : (raiseFault k n s).resps = s.resps.set s.port (s.resps.get s.port ++ List.replicate n zeroWord) := by
  unfold raiseFault; split <;> simp_all
@[simp] theorem raiseFault_rst (k : FaultCode) (n : Nat) (s : State) : (raiseFault k n s).rst = s.rst := by
  unfold raiseFault; split <;> simp_all
@[simp] theorem raiseFault_port (k : FaultCode) (n : Nat) (s : State) : (raiseFault k n s).port = s.port := by
  unfold raiseFault; split <;> simp_all
@[simp] theorem raiseFault_draws (k : FaultCode) (n : Nat) (s : State) : (raiseFault k n s).draws = s.draws := by
  unfold raiseFault; split <;> simp_all

@[simp] theorem haltedCommand_cfg (op : Opcode) (s : State) : (haltedCommand op s).cfg = s.cfg := rfl
@[simp] theorem haltedCommand_mem (op : Opcode) (s : State) : (haltedCommand op s).mem = s.mem := rfl
@[simp] theorem haltedCommand_idx (op : Opcode) (s : State) : (haltedCommand op s).idx = s.idx := rfl
@[simp] theorem haltedCommand_ready (op : Opcode) (s : State) : (haltedCommand op s).ready = s.ready := rfl
@[simp] theorem haltedCommand_rendered (op : Opcode) (s : State) : (haltedCommand op s).rendered = s.rendered := rfl
@[simp] theorem haltedCommand_err (op : Opcode) (s : State) : (haltedCommand op s).err = s.err := rfl
@[simp] theorem haltedCommand_ecode (op : Opcode) (s : State) : (haltedCommand op s).ecode = s.ecode := rfl
@[simp] theorem haltedCommand_cmds (op : Opcode) (s : State) : (haltedCommand op s).cmds = s.cmds := rfl
@[simp] theorem haltedCommand_resps (op : Opcode) (s : State) : (haltedCommand op s).resps = s.resps.set s.port (s.resps.get s.port ++ List.replicate (frameWords s.cfg op) zeroWord) := rfl
@[simp] theorem haltedCommand_rst (op : Opcode) (s : State) : (haltedCommand op s).rst = s.rst := rfl
@[simp] theorem haltedCommand_port (op : Opcode) (s : State) : (haltedCommand op s).port = s.port := rfl
@[simp] theorem haltedCommand_draws (op : Opcode) (s : State) : (haltedCommand op s).draws = s.draws := rfl

@[simp] theorem State.resetWith_cfg (c : Config) (d : Nat) : (State.resetWith c d).cfg = c := rfl
@[simp] theorem State.resetWith_mem (c : Config) (d : Nat) : (State.resetWith c d).mem = Memory.unwritten := rfl
@[simp] theorem State.resetWith_idx (c : Config) (d : Nat) : (State.resetWith c d).idx = 0 := rfl
@[simp] theorem State.resetWith_ready (c : Config) (d : Nat) : (State.resetWith c d).ready = false := rfl
@[simp] theorem State.resetWith_rendered (c : Config) (d : Nat) : (State.resetWith c d).rendered = false := rfl
@[simp] theorem State.resetWith_err (c : Config) (d : Nat) : (State.resetWith c d).err = false := rfl
@[simp] theorem State.resetWith_ecode (c : Config) (d : Nat) : (State.resetWith c d).ecode = 0 := rfl
@[simp] theorem State.resetWith_cmds (c : Config) (d : Nat) : (State.resetWith c d).cmds = { producer := [], consumer := [], reader := [] } := rfl
@[simp] theorem State.resetWith_resps (c : Config) (d : Nat) : (State.resetWith c d).resps = { producer := [], consumer := [], reader := [] } := rfl
@[simp] theorem State.resetWith_rst (c : Config) (d : Nat) : (State.resetWith c d).rst = false := rfl
@[simp] theorem State.resetWith_port (c : Config) (d : Nat) : (State.resetWith c d).port = Config.grant d := rfl
@[simp] theorem State.resetWith_draws (c : Config) (d : Nat) : (State.resetWith c d).draws = d := rfl

@[simp] theorem transformInPlace_cfg (s : State) : (transformInPlace s).cfg = s.cfg := rfl
@[simp] theorem transformInPlace_mem (s : State) : (transformInPlace s).mem = { s.mem with tbuf := fillCells (2 * s.cfg.N) (transformWord s.cfg s.draws (tbufWords s)) } := rfl
@[simp] theorem transformInPlace_idx (s : State) : (transformInPlace s).idx = s.idx := rfl
@[simp] theorem transformInPlace_ready (s : State) : (transformInPlace s).ready = s.ready := rfl
@[simp] theorem transformInPlace_rendered (s : State) : (transformInPlace s).rendered = s.rendered := rfl
@[simp] theorem transformInPlace_err (s : State) : (transformInPlace s).err = s.err := rfl
@[simp] theorem transformInPlace_ecode (s : State) : (transformInPlace s).ecode = s.ecode := rfl
@[simp] theorem transformInPlace_cmds (s : State) : (transformInPlace s).cmds = s.cmds := rfl
@[simp] theorem transformInPlace_resps (s : State) : (transformInPlace s).resps = s.resps := rfl
@[simp] theorem transformInPlace_rst (s : State) : (transformInPlace s).rst = s.rst := rfl
@[simp] theorem transformInPlace_port (s : State) : (transformInPlace s).port = s.port := rfl
@[simp] theorem transformInPlace_draws (s : State) : (transformInPlace s).draws = s.draws := rfl

@[simp] theorem renderFrame_cfg (s : State) : (renderFrame s).cfg = s.cfg := rfl
@[simp] theorem renderFrame_mem (s : State) : (renderFrame s).mem = { s.mem with surf := fillCells (s.cfg.W * s.cfg.H) (fun j => framePixel s.cfg (readTbuf s) (j % s.cfg.W) (j / s.cfg.W)) } := rfl
@[simp] theorem renderFrame_idx (s : State) : (renderFrame s).idx = s.idx := rfl
@[simp] theorem renderFrame_ready (s : State) : (renderFrame s).ready = s.ready := rfl
@[simp] theorem renderFrame_rendered (s : State) : (renderFrame s).rendered = s.rendered := rfl
@[simp] theorem renderFrame_err (s : State) : (renderFrame s).err = s.err := rfl
@[simp] theorem renderFrame_ecode (s : State) : (renderFrame s).ecode = s.ecode := rfl
@[simp] theorem renderFrame_cmds (s : State) : (renderFrame s).cmds = s.cmds := rfl
@[simp] theorem renderFrame_resps (s : State) : (renderFrame s).resps = s.resps := rfl
@[simp] theorem renderFrame_rst (s : State) : (renderFrame s).rst = s.rst := rfl
@[simp] theorem renderFrame_port (s : State) : (renderFrame s).port = s.port := rfl
@[simp] theorem renderFrame_draws (s : State) : (renderFrame s).draws = s.draws := rfl

@[simp] theorem transferBlock_cfg (s : State) : (transferBlock s).cfg = s.cfg := rfl
@[simp] theorem transferBlock_mem (s : State) : (transferBlock s).mem = { s.mem with tbuf := fillCells (2 * s.cfg.N) (fun j => if j < s.cfg.N then readFifo s j else zeroWord) } := rfl
@[simp] theorem transferBlock_idx (s : State) : (transferBlock s).idx = s.idx := rfl
@[simp] theorem transferBlock_ready (s : State) : (transferBlock s).ready = true := rfl
@[simp] theorem transferBlock_rendered (s : State) : (transferBlock s).rendered = s.rendered := rfl
@[simp] theorem transferBlock_err (s : State) : (transferBlock s).err = s.err := rfl
@[simp] theorem transferBlock_ecode (s : State) : (transferBlock s).ecode = s.ecode := rfl
@[simp] theorem transferBlock_cmds (s : State) : (transferBlock s).cmds = s.cmds := rfl
@[simp] theorem transferBlock_resps (s : State) : (transferBlock s).resps = s.resps := rfl
@[simp] theorem transferBlock_rst (s : State) : (transferBlock s).rst = s.rst := rfl
@[simp] theorem transferBlock_port (s : State) : (transferBlock s).port = s.port := rfl
@[simp] theorem transferBlock_draws (s : State) : (transferBlock s).draws = s.draws := rfl

@[simp] theorem PerPort.get_set_same {α : Type} (q : PerPort α) (p : Port) (a : α) :
    (q.set p a).get p = a := by cases p <;> rfl

@[simp] theorem PerPort.get_set_other {α : Type} (q : PerPort α) (p r : Port) (a : α) (h : r ≠ p) :
    (q.set p a).get r = q.get r := by cases p <;> cases r <;> first | rfl | exact absurd rfl h

theorem PerPort.get_set {α : Type} (q : PerPort α) (p r : Port) (a : α) :
    (q.set p a).get r = if r = p then a else q.get r := by
  by_cases h : r = p
  · subst h; simp
  · simp [h]

/-- Two `PerPort`s that hold the same for every port are equal. -/
theorem PerPort.ext_get {α : Type} {q r : PerPort α} (h : ∀ p, q.get p = r.get p) : q = r := by
  have h1 := h .producer
  have h2 := h .consumer
  have h3 := h .reader
  cases q; cases r
  simp_all [PerPort.get]

@[simp] theorem PerPort.set_get_same {α : Type} (q : PerPort α) (p : Port) : q.set p (q.get p) = q := by
  cases p <;> rfl

end Sys2Proof.Machine
end

