-- ==== Sys2Proof/Laws/Memory.lean ====
section
/-! SUPPORT. The laws of the index spaces: a read after a write, what a whole-space write leaves, and the
canonical form, which every memory operation keeps (20_memory.md R70, R71). -/

namespace Sys2Proof.Machine

variable {w : Nat}

/-- Reading one index after writing another or the same. -/
@[simp] theorem cellAt_cellWrite (m : Cells w) (j k : Nat) (v : BitVec w) :
    cellAt (cellWrite m j v) k = if k = j then some v else cellAt m k := by
  induction m with
  | nil => simp only [cellWrite, cellAt, eq_comm]
  | cons e rest ih =>
    obtain ⟨a, u⟩ := e
    simp only [cellWrite]
    split
    · by_cases h : k = j
      · subst h; simp [cellAt]
      · simp [cellAt, h, Ne.symm h]
    · split
      · rename_i h1 h2; subst h2
        by_cases h : k = j
        · subst h; simp [cellAt]
        · simp [cellAt, h, Ne.symm h]
      · rename_i h1 h2
        by_cases h : k = j
        · subst h
          simp [cellAt, ih, Ne.symm h2]
        · by_cases h' : a = k <;> simp [cellAt, ih, h, h']

/-- Every index listed after a write was listed before it or is the written one. -/
theorem mem_cellWrite (m : Cells w) (j : Nat) (v : BitVec w) (e : Nat × BitVec w)
    (h : e ∈ cellWrite m j v) : e = (j, v) ∨ e ∈ m := by
  induction m with
  | nil => simpa [cellWrite] using h
  | cons f rest ih =>
    obtain ⟨a, u⟩ := f
    simp only [cellWrite] at h
    split at h
    · simpa using h
    · split at h
      · simp only [List.mem_cons] at h ⊢; tauto
      · simp only [List.mem_cons] at h ⊢
        rcases h with h | h
        · exact .inr (.inl h)
        · rcases ih h with h | h
          · exact .inl h
          · exact .inr (.inr h)

theorem cellWrite_rising (m : Cells w) (j : Nat) (v : BitVec w) (hm : cellsRising m = true) :
    cellsRising (cellWrite m j v) = true := by
  induction m with
  | nil => simp [cellWrite, cellsRising]
  | cons e rest ih =>
    obtain ⟨a, u⟩ := e
    have hm' := hm
    simp only [cellsRising, Bool.and_eq_true, List.all_eq_true, decide_eq_true_eq] at hm
    simp only [cellWrite]
    split
    · rename_i h
      rw [cellsRising, hm']
      simp only [List.all_cons, Bool.and_true, Bool.and_eq_true, decide_eq_true_eq,
        List.all_eq_true]
      exact ⟨h, fun f hf => lt_trans h (hm.1 f hf)⟩
    · split
      · rename_i h1 h2; subst h2
        simpa [cellsRising] using hm
      · rename_i h1 h2
        simp only [cellsRising, Bool.and_eq_true, List.all_eq_true, decide_eq_true_eq]
        refine ⟨fun f hf => ?_, ih hm.2⟩
        rcases mem_cellWrite rest j v f hf with h | h
        · subst h; simp only; omega
        · exact hm.1 f h

theorem cellWrite_below (n : Nat) (m : Cells w) (j : Nat) (v : BitVec w) (hm : cellsBelow n m = true)
    (hj : j < n) : cellsBelow n (cellWrite m j v) = true := by
  simp only [cellsBelow, List.all_eq_true, decide_eq_true_eq] at hm ⊢
  intro e he
  rcases mem_cellWrite m j v e he with h | h
  · subst h; exact hj
  · exact hm e h

/-- What a whole-space write leaves at each index. -/
theorem cellAt_map_range' (f : Nat → BitVec w) (j : Nat) (n a : Nat) :
    cellAt ((List.range' a n).map (fun j => (j, f j))) j =
      if a ≤ j ∧ j < a + n then some (f j) else none := by
  induction n generalizing a with
  | zero => simp [cellAt]
  | succ n ih =>
    simp only [List.range'_succ, List.map_cons, cellAt, ih]
    by_cases h : a = j
    · subst h; simp
    · simp only [h, if_false]
      congr 1
      simp only [eq_iff_iff]
      omega

@[simp] theorem cellAt_fillCells (n : Nat) (f : Nat → BitVec w) (j : Nat) :
    cellAt (fillCells n f) j = if j < n then some (f j) else none := by
  have := cellAt_map_range' f j n 0
  simpa [fillCells, List.range_eq_range'] using this

theorem map_range'_rising (f : Nat → BitVec w) (n a : Nat) :
    cellsRising ((List.range' a n).map (fun j => (j, f j))) = true := by
  induction n generalizing a with
  | zero => rfl
  | succ n ih =>
    simp only [List.range'_succ, List.map_cons, cellsRising, ih, Bool.and_true, List.all_eq_true,
      decide_eq_true_eq, List.mem_map, List.mem_range'_1]
    rintro e ⟨k, hk, rfl⟩
    simp only
    omega

@[simp] theorem fillCells_rising (n : Nat) (f : Nat → BitVec w) : cellsRising (fillCells n f) = true := by
  simpa [fillCells, List.range_eq_range'] using map_range'_rising f n 0

@[simp] theorem fillCells_below (n : Nat) (f : Nat → BitVec w) : cellsBelow n (fillCells n f) = true := by
  simp [fillCells, cellsBelow]

/-- Nothing is read at an index below every listed one. -/
theorem cellAt_none_of_lt (m : Cells w) (j : Nat) (h : ∀ e ∈ m, j < e.1) : cellAt m j = none := by
  induction m with
  | nil => rfl
  | cons e rest ih =>
    obtain ⟨a, u⟩ := e
    have ha : j < a := h (a, u) (by simp)
    simp only [cellAt]
    rw [if_neg (by omega)]
    exact ih (fun e he => h e (by simp [he]))

/-- Cells in canonical form that read the same at every index are equal. -/
theorem cells_ext (m n : Cells w) (hm : cellsRising m = true) (hn : cellsRising n = true)
    (h : ∀ j, cellAt m j = cellAt n j) : m = n := by
  induction m generalizing n with
  | nil =>
    cases n with
    | nil => rfl
    | cons e rest =>
      have := h e.1
      simp [cellAt] at this
  | cons e rest ih =>
    obtain ⟨a, u⟩ := e
    cases n with
    | nil =>
      have := h a
      simp [cellAt] at this
    | cons f rest' =>
      obtain ⟨b, v⟩ := f
      simp only [cellsRising, Bool.and_eq_true, List.all_eq_true, decide_eq_true_eq] at hm hn
      have hab : a = b := by
        rcases Nat.lt_trichotomy a b with hlt | heq | hgt
        · have := h a
          rw [show cellAt ((b, v) :: rest') a = none from
            cellAt_none_of_lt _ _ (by
              intro e he
              rcases List.mem_cons.1 he with rfl | he
              · exact hlt
              · exact lt_trans hlt (hn.1 e he))] at this
          simp [cellAt] at this
        · exact heq
        · have := h b
          rw [show cellAt ((a, u) :: rest) b = none from
            cellAt_none_of_lt _ _ (by
              intro e he
              rcases List.mem_cons.1 he with rfl | he
              · exact hgt
              · exact lt_trans hgt (hm.1 e he))] at this
          simp [cellAt] at this
      subst hab
      have huv : u = v := by simpa [cellAt] using h a
      subst huv
      refine congrArg _ (ih rest' hm.2 hn.2 (fun j => ?_))
      by_cases hj : a = j
      · subst hj
        rw [cellAt_none_of_lt _ _ hm.1, cellAt_none_of_lt _ _ hn.1]
      · simpa [cellAt, hj] using h j

/-- The canonical form, spelled out. -/
theorem Memory.wf_iff (c : Config) (m : Memory) :
    m.wf c = true ↔
      (cellsRising m.fifo = true ∧ cellsBelow c.N m.fifo = true) ∧
      (cellsRising m.tbuf = true ∧ cellsBelow (2 * c.N) m.tbuf = true) ∧
      (cellsRising m.surf = true ∧ cellsBelow (c.W * c.H) m.surf = true) := by
  simp [Memory.wf, and_assoc]

@[simp] theorem Memory.unwritten_wf (c : Config) : Memory.unwritten.wf c = true := by
  simp [Memory.wf, Memory.unwritten, cellsRising, cellsBelow]

/-- `MemWrite(FIFO, j, v)` keeps the canonical form. -/
theorem writeFifo_wf (s : State) (j : Nat) (v : Word32) (h : s.mem.wf s.cfg = true) (hj : j < s.cfg.N) :
    (writeFifo s j v).mem.wf (writeFifo s j v).cfg = true := by
  simp only [Memory.wf_iff, writeFifo_mem, writeFifo_cfg] at h ⊢
  exact ⟨⟨cellWrite_rising _ _ _ h.1.1, cellWrite_below _ _ _ _ h.1.2 hj⟩, h.2⟩

/-- Writing all of `TBUF` keeps the canonical form. -/
theorem writeTbufAll_wf (s : State) (f : Nat → Word32) (h : s.mem.wf s.cfg = true) :
    (writeTbufAll s f).mem.wf (writeTbufAll s f).cfg = true := by
  simp only [Memory.wf_iff, writeTbufAll_mem, writeTbufAll_cfg] at h ⊢
  simp [h.1, h.2.2]

/-- Writing all of `SURF` keeps the canonical form. -/
theorem writeSurfAll_wf (s : State) (f : Nat → Pixel) (h : s.mem.wf s.cfg = true) :
    (writeSurfAll s f).mem.wf (writeSurfAll s f).cfg = true := by
  simp only [Memory.wf_iff, writeSurfAll_mem, writeSurfAll_cfg] at h ⊢
  simp [h.1, h.2.1]

/-- Storage at reset is in canonical form. -/
theorem reset_wf : State.reset.mem.wf State.reset.cfg = true := by simp [State.reset]

end Sys2Proof.Machine
end

