-- ==== Sys2Proof/Laws/Ops.lean ====
section
/-! SUPPORT. One lemma for each shared operation: the checks every command passes first, the two parts of
a push, and what a push and a tick leave. -/

namespace Sys2Proof.Machine

/-- The two spellings of port rights agree (30_encoding.md R105 and the table's "ports"). -/
theorem portAllows_eq_ports (p : Port) (op : Opcode) : portAllows p op = op.ports.contains p := by
  cases p <;> cases op <;> rfl

/-- A command has no range fault exactly when its operands are in range. -/
theorem rangeFault_none_iff (c : Config) (i : Instr) : rangeFault c i = none ↔ i.inRange c = true := by
  cases i <;> simp [rangeFault, Instr.inRange, tbufIndexFault, pixelFault, selectorFault]

/-- A decoded command faults exactly when it is not well formed. -/
theorem commandFault_none_iff (p : Port) (c : Config) (i : Instr) :
    commandFault p c i = none ↔ i.wellFormed p c = true := by
  cases hp : i.opcode.ports.contains p <;>
    simp [commandFault, Instr.wellFormed, portAllows_eq_ports, hp, rangeFault_none_iff, -List.contains_eq_mem]

section Guarded

variable {i : Instr} {s t : State} {run : State → Host.Outcome State Fault Refusal}

theorem guarded_of_fault {k : FaultCode} (h : commandFault s.port s.cfg i = some k) :
    guarded i s run = .next (raiseFault k (frameWords s.cfg i.opcode) s) := by
  simp [guarded, h]

theorem guarded_of_halted (hw : i.wellFormed s.port s.cfg = true) (he : s.err = true)
    (hr : runsHalted i.opcode = false) : guarded i s run = .next (haltedCommand i.opcode s) := by
  simp [guarded, (commandFault_none_iff _ _ _).2 hw, he, hr]

theorem guarded_of_runs (hw : i.wellFormed s.port s.cfg = true)
    (he : s.err = false ∨ runsHalted i.opcode = true) : guarded i s run = run s := by
  rcases he with he | he <;> simp [guarded, (commandFault_none_iff _ _ _).2 hw, he]

/-- All that the checks can lead to. -/
theorem guarded_cases (h : guarded i s run = .next t) :
    (∃ k, commandFault s.port s.cfg i = some k ∧ t = raiseFault k (frameWords s.cfg i.opcode) s) ∨
    (i.wellFormed s.port s.cfg = true ∧ s.err = true ∧ runsHalted i.opcode = false ∧
      t = haltedCommand i.opcode s) ∨
    (i.wellFormed s.port s.cfg = true ∧ (s.err = false ∨ runsHalted i.opcode = true) ∧ run s = .next t) := by
  cases hf : commandFault s.port s.cfg i with
  | some k =>
    rw [guarded_of_fault hf] at h
    exact .inl ⟨k, rfl, by injection h with h; exact h.symm⟩
  | none =>
    have hw := (commandFault_none_iff _ _ _).1 hf
    by_cases he : s.err = true ∧ runsHalted i.opcode = false
    · rw [guarded_of_halted hw he.1 he.2] at h
      exact .inr (.inl ⟨hw, he.1, he.2, by injection h with h; exact h.symm⟩)
    · have he' : s.err = false ∨ runsHalted i.opcode = true := by
        cases h1 : s.err <;> cases h2 : runsHalted i.opcode <;> simp_all
      rw [guarded_of_runs hw he'] at h
      exact .inr (.inr ⟨hw, he', h⟩)

end Guarded

section Push

/-- What the fullness check leaves in the Transform Buffer and the flag (40_fifo.md R142, R143). -/
theorem checkFullness_full (s : State) (h : s.idx.toNat = s.cfg.N) :
    checkFullness s =
      if s.ready then setIdx 0 s else setIdx 0 (transferBlock s) := by
  simp only [checkFullness, h, if_true]
  split <;> rfl

theorem checkFullness_not_full (s : State) (h : s.idx.toNat ≠ s.cfg.N) : checkFullness s = s := by
  simp [checkFullness, h]

@[simp] theorem checkFullness_cfg (s : State) : (checkFullness s).cfg = s.cfg := by
  unfold checkFullness; split <;> simp; split <;> simp
@[simp] theorem checkFullness_fifo (s : State) : (checkFullness s).mem.fifo = s.mem.fifo := by
  unfold checkFullness; split <;> simp; split <;> simp
@[simp] theorem checkFullness_surf (s : State) : (checkFullness s).mem.surf = s.mem.surf := by
  unfold checkFullness; split <;> simp; split <;> simp
@[simp] theorem checkFullness_rendered (s : State) : (checkFullness s).rendered = s.rendered := by
  unfold checkFullness; split <;> simp; split <;> simp
@[simp] theorem checkFullness_err (s : State) : (checkFullness s).err = s.err := by
  unfold checkFullness; split <;> simp; split <;> simp
@[simp] theorem checkFullness_ecode (s : State) : (checkFullness s).ecode = s.ecode := by
  unfold checkFullness; split <;> simp; split <;> simp
@[simp] theorem checkFullness_cmds (s : State) : (checkFullness s).cmds = s.cmds := by
  unfold checkFullness; split <;> simp; split <;> simp
@[simp] theorem checkFullness_resps (s : State) : (checkFullness s).resps = s.resps := by
  unfold checkFullness; split <;> simp; split <;> simp
@[simp] theorem checkFullness_rst (s : State) : (checkFullness s).rst = s.rst := by
  unfold checkFullness; split <;> simp; split <;> simp
@[simp] theorem checkFullness_port (s : State) : (checkFullness s).port = s.port := by
  unfold checkFullness; split <;> simp; split <;> simp
@[simp] theorem checkFullness_draws (s : State) : (checkFullness s).draws = s.draws := by
  unfold checkFullness; split <;> simp; split <;> simp

/-- The block size is positive. -/
theorem blockSize_pos (c : Config) : 0 < c.N := Nat.two_pow_pos _

/-- The block size fits the cursor's 16 bits with room for one more. -/
theorem blockSize_le (c : Config) : c.N ≤ 32768 :=
  Nat.pow_le_pow_right (n := 2) (by decide) (Nat.le_of_lt_succ c.blockLog.isLt)

/-- After the fullness check the cursor has a slot to write, unless it was above `N` (R145). -/
theorem checkFullness_idx_lt (s : State) (h : s.idx.toNat ≤ s.cfg.N) :
    (checkFullness s).idx.toNat < s.cfg.N := by
  unfold checkFullness
  split
  · have := blockSize_pos s.cfg
    simpa using this
  · omega

/-- What writing a sample leaves, where there is a slot (R145). -/
theorem writeSample_next (sample : Word32) (s : State) (h : s.idx.toNat < s.cfg.N) :
    writeSample sample s = .next (setIdx (s.idx + 1) (writeFifo s s.idx.toNat sample)) := by
  simp [writeSample, h]

theorem writeSample_fault (sample : Word32) (s : State) (h : ¬ s.idx.toNat < s.cfg.N) :
    writeSample sample s = .fault .fifoIndexOutOfRange := by
  simp [writeSample, h]

/-- The cursor's increment does not wrap where there is a slot. -/
theorem idx_succ_toNat (s : State) (h : s.idx.toNat < s.cfg.N) : (s.idx + 1).toNat = s.idx.toNat + 1 := by
  have := blockSize_le s.cfg
  rw [BitVec.toNat_add]
  change (s.idx.toNat + 1) % 2 ^ 16 = _
  omega

end Push

section Tick

@[simp] theorem tickReady_cfg (s : State) : (tickReady s).cfg = s.cfg := rfl
@[simp] theorem tickReady_fifo (s : State) : (tickReady s).mem.fifo = s.mem.fifo := rfl
@[simp] theorem tickReady_tbuf (s : State) :
    (tickReady s).mem.tbuf = fillCells (2 * s.cfg.N) (transformWord s.cfg s.draws (tbufWords s)) := rfl
@[simp] theorem tickReady_idx (s : State) : (tickReady s).idx = s.idx := rfl
@[simp] theorem tickReady_ready (s : State) : (tickReady s).ready = false := rfl
@[simp] theorem tickReady_rendered (s : State) : (tickReady s).rendered = true := rfl
@[simp] theorem tickReady_err (s : State) : (tickReady s).err = s.err := rfl
@[simp] theorem tickReady_ecode (s : State) : (tickReady s).ecode = s.ecode := rfl
@[simp] theorem tickReady_cmds (s : State) : (tickReady s).cmds = s.cmds := rfl
@[simp] theorem tickReady_resps (s : State) : (tickReady s).resps = s.resps := rfl
@[simp] theorem tickReady_rst (s : State) : (tickReady s).rst = s.rst := rfl
@[simp] theorem tickReady_port (s : State) : (tickReady s).port = s.port := rfl
@[simp] theorem tickReady_draws (s : State) : (tickReady s).draws = s.draws := rfl

/-- The frame a tick leaves is that of the transformed magnitudes (44_tick.md R222). -/
theorem tickReady_surf (s : State) :
    (tickReady s).mem.surf = fillCells (s.cfg.W * s.cfg.H) (fun j =>
      framePixel s.cfg (readTbuf (transformInPlace s)) (j % s.cfg.W) (j / s.cfg.W)) := rfl

/-- A read of the Transform Buffer after the transform, in range. -/
theorem readTbuf_transformInPlace (s : State) (j : Nat) (h : j < 2 * s.cfg.N) :
    readTbuf (transformInPlace s) j = transformWord s.cfg s.draws (tbufWords s) j := by
  simp [readTbuf, h]

/-- On a block of finite words `T` is a function of the block (41_transform.md R161(a)). -/
theorem transformWord_of_finite {c : Config} {v : List Word32} (h : v.all floatIsFinite = true) (d j : Nat) :
    transformWord c d v j = finiteTransformWord c v j := by
  simp only [transformWord, h, Bool.true_or, if_true]

/-- The stub `T_ID` is the identity on every block (41_transform.md R165). -/
theorem transformWord_of_stub {c : Config} (h : c.engine = .testIdentity) (d : Nat) (v : List Word32)
    (j : Nat) : transformWord c d v j = blockWord v j := by
  simp [transformWord, finiteTransformWord, h]

/-- On a block with a non-finite word nothing is known of `T` but for the stub (U6). -/
theorem transformWord_of_not_finite {c : Config} {v : List Word32} (he : c.engine ≠ .testIdentity)
    (h : v.all floatIsFinite = false) (d j : Nat) :
    transformWord c d v j = Config.freeTransformWord d v j := by
  simp [transformWord, h, he]

end Tick

end Sys2Proof.Machine
end

