-- ==== Sys2Proof/Laws/PerInstr.lean ====
section
/-! SUPPORT. The family `OpcodeByte`, a fact about each command as syntax: its word carries its own
opcode byte and zero reserved bits (30_encoding.md R101, R104). -/

namespace Sys2Proof.Laws.OpcodeByte

/-- The opcode byte of the command's word names the command's opcode, and RSV is 0. -/
def Statement (i : Instr) : Prop := opcodeOfByte (opcField (encode i)) = some i.opcode ∧ rsvField (encode i) = 0

theorem nop : Statement .nop := by simp [Statement]
theorem push (sample : Word32) : Statement (.push sample) := by simp [Statement]
theorem tick : Statement .tick := by simp [Statement]
theorem rdTbuf (tidx : BitVec 16) : Statement (.rdTbuf tidx) := by simp [Statement]
theorem rdPixel (x y : BitVec 16) : Statement (.rdPixel x y) := by simp [Statement]
theorem rdSurface : Statement .rdSurface := by simp [Statement]
theorem rdStatus : Statement .rdStatus := by simp [Statement]
theorem rdConfig (sel : BitVec 8) : Statement (.rdConfig sel) := by simp [Statement]

end Sys2Proof.Laws.OpcodeByte
end

