-- ==== Sys2Proof/Laws/Step.lean ====
section
/-! SUPPORT. Everything a command, a word and a step can do, said once. -/

namespace Sys2Proof.Machine

/-- What a command does once its checks have passed. -/
def effect (i : Instr) (s : State) : Host.Outcome State Fault Refusal :=
  match i with
  | .nop => .next s
  | .push sample => writeSample sample (checkFullness s)
  | .tick => if isReady s then .next (tickReady s) else .next s
  | .rdTbuf tidx => .next (respond [readTbuf s tidx.toNat] s)
  | .rdPixel x y => .next (respond [pixelWord (readSurf s (pixelIndex s.cfg x.toNat y.toNat))] s)
  | .rdSurface => .next (respond (surfaceWords s) s)
  | .rdStatus => .next (respond [statusWord s] s)
  | .rdConfig sel => .next (respond [configWord s.cfg sel] s)

/-- Every command is its effect behind the shared checks (30_encoding.md R107). -/
theorem exec_eq_guarded (i : Instr) (s : State) : exec i s = guarded i s (effect i) := by
  cases i <;> rfl

theorem exec_of_runs {i : Instr} {s : State} (hw : i.wellFormed s.port s.cfg = true)
    (he : s.err = false ∨ runsHalted i.opcode = true) : exec i s = effect i s := by
  rw [exec_eq_guarded, guarded_of_runs hw he]

theorem exec_of_halted {i : Instr} {s : State} (hw : i.wellFormed s.port s.cfg = true) (he : s.err = true)
    (hr : runsHalted i.opcode = false) : exec i s = .next (haltedCommand i.opcode s) := by
  rw [exec_eq_guarded, guarded_of_halted hw he hr]

theorem exec_of_fault {i : Instr} {s : State} {k : FaultCode}
    (h : commandFault s.port s.cfg i = some k) :
    exec i s = .next (raiseFault k (frameWords s.cfg i.opcode) s) := by
  rw [exec_eq_guarded, guarded_of_fault h]

/-- All that a command's effect can be: only words answered, a push, or a tick. -/
theorem effect_cases {i : Instr} {s t : State} (h : effect i s = .next t) :
    (∃ ws, t = respond ws s ∧ i.opcode ≠ .push ∧ (i.opcode = .tick → s.ready = false)) ∨
    (∃ sample, i = .push sample ∧ (checkFullness s).idx.toNat < s.cfg.N ∧
      t = setIdx ((checkFullness s).idx + 1)
        (writeFifo (checkFullness s) (checkFullness s).idx.toNat sample)) ∨
    (i = .tick ∧ s.ready = true ∧ t = tickReady s) := by
  have nothing : respond [] s = s := by simp [respond]
  cases i with
  | nop => exact .inl ⟨[], by injection h with h; rw [nothing, h], by simp [Instr.opcode]⟩
  | push sample =>
    refine .inr (.inl ⟨sample, rfl, ?_⟩)
    by_cases hlt : (checkFullness s).idx.toNat < (checkFullness s).cfg.N
    · simp only [effect, writeSample_next _ _ hlt] at h
      injection h with h
      exact ⟨by simpa using hlt, h.symm⟩
    · simp only [effect, writeSample_fault _ _ hlt] at h
      cases h
  | tick =>
    by_cases hr : s.ready = true
    · simp only [effect, isReady, hr, if_true] at h
      exact .inr (.inr ⟨rfl, hr, by injection h with h; exact h.symm⟩)
    · simp only [effect, isReady, hr] at h
      exact .inl ⟨[], by injection h with h; rw [nothing, h], by simp [Instr.opcode], fun _ => by simpa using hr⟩
  | rdTbuf _ | rdPixel _ _ | rdSurface | rdStatus | rdConfig _ =>
    exact .inl ⟨_, by injection h with h; exact h.symm, by simp [Instr.opcode]⟩

/-- All that a command word can do (30_encoding.md R107; 60_exceptions.md R272, R273). -/
theorem runWord_cases {w : Command} {s t : State} (h : runWord w s = .next t) :
    (∃ k n, t = raiseFault k n s) ∨
    (∃ i, decode w = .ok i ∧ i.wellFormed s.port s.cfg = true ∧ s.err = true ∧
      runsHalted i.opcode = false ∧ t = haltedCommand i.opcode s) ∨
    (∃ i, decode w = .ok i ∧ i.wellFormed s.port s.cfg = true ∧
      (s.err = false ∨ runsHalted i.opcode = true) ∧ effect i s = .next t) := by
  unfold runWord at h
  split at h
  · rename_i i hd
    rw [exec_eq_guarded] at h
    rcases guarded_cases h with ⟨k, _, ht⟩ | ⟨hw, he, hr, ht⟩ | ⟨hw, he, ht⟩
    · exact .inl ⟨k, _, ht⟩
    · exact .inr (.inl ⟨i, hd, hw, he, hr, ht⟩)
    · exact .inr (.inr ⟨i, hd, hw, he, ht⟩)
  · rename_i r hd
    injection h with h
    subst h
    refine .inl ?_
    cases r with
    | unknownOpcode => exact ⟨_, _, rfl⟩
    | reservedBits op =>
      simp only [rejectCommand]
      split <;> exact ⟨_, _, rfl⟩

/-- The served port has a command waiting. -/
theorem servedPort_waiting {s : State} {p : Port} (h : servedPort s = some p) : s.cmds.get p ≠ [] := by
  unfold servedPort at h
  split at h
  · rename_i hne
    injection h with h; subst h; simpa using hne
  · split at h
    · rename_i hne
      injection h with h; subst h; simpa using hne
    · split at h
      · rename_i hne
        injection h with h; subst h; simpa using hne
      · cases h

/-- All that a step can do. -/
theorem step_cases {s t : State} (h : step s = .next t) :
    (s.rst = true ∧ t = applyReset s) ∨
    (s.rst = false ∧ servedPort s = none ∧ t = s) ∨
    (∃ p w u, s.rst = false ∧ servedPort s = some p ∧ oldestCommand s p = some w ∧
      runWord w (takeCommand s p) = .next u ∧ t = drawNext s.draws u) := by
  unfold step at h
  split at h
  · rename_i hr
    injection h with h
    exact .inl ⟨hr, h.symm⟩
  · rename_i hr
    have hr : s.rst = false := by simpa using hr
    split at h
    · rename_i hp
      injection h with h
      exact .inr (.inl ⟨hr, hp, h.symm⟩)
    · rename_i p hp
      split at h
      · rename_i ho
        exact absurd (List.head?_eq_none_iff.1 ho) (servedPort_waiting hp)
      · rename_i w ho
        split at h
        · rename_i u hu
          injection h with h
          exact .inr (.inr ⟨p, w, u, hr, hp, ho, hu, h.symm⟩)
        · cases h
        · cases h

end Sys2Proof.Machine
end

