-- ==== Sys2Proof/Laws/Ports.lean ====
section
/-! SUPPORT. When a port accepts a command, and all that accepting one does (70_reset_and_hazards.md R301,
R306 to R308; 44_tick.md R224). -/

namespace Sys2Proof.Machine

theorem tickAccepted_iff (s : State) :
    tickAccepted s = true ↔ ∃ w ∈ s.cmds.get .consumer, decode w = .ok .tick := by
  simp [tickAccepted]

theorem portOpen_producer (s : State) : portOpen .producer s = !s.rst := by simp [portOpen]

theorem portOpen_consumer_iff (s : State) :
    portOpen .consumer s = true ↔
      s.rst = false ∧ (s.err = true ∨ ∀ w ∈ s.cmds.get .consumer, decode w ≠ .ok .tick) := by
  cases hr : s.rst <;> cases he : s.err <;> simp [portOpen, tickAccepted, hr, he]

/-- An open port takes the command behind its earlier ones. -/
theorem acceptCommand_of_open {p : Port} {s : State} (w : Command) (h : portOpen p s = true) :
    acceptCommand p w s = { s with cmds := s.cmds.set p (s.cmds.get p ++ [w]) } := by
  simp [acceptCommand, h]

/-- A closed port takes nothing. -/
theorem acceptCommand_of_closed {p : Port} {s : State} (w : Command) (h : portOpen p s = false) :
    acceptCommand p w s = s := by
  simp [acceptCommand, h]

/-- A halted block withholds nothing (60_exceptions.md R273). -/
@[simp] theorem withholds_of_halted {s : State} (a : Activity) (stall : Bool) (p : Port) (h : s.err = true) :
    withholds a stall p s = false := by
  simp [withholds, h]

/-- Every port of a halted block is open unless reset is asserted. -/
theorem portOpen_of_halted {s : State} (p : Port) (h : s.err = true) : portOpen p s = !s.rst := by
  simp [portOpen, h]

theorem portOpen_reader (s : State) : portOpen .reader s = !s.rst := by simp [portOpen]

/-- An offer is the acceptance where the port does not withhold. -/
theorem offerCommand_of_not_withheld {a : Activity} {stall : Bool} {p : Port} {s : State} (w : Command)
    (hw : withholds a stall p s = false) (ho : portOpen p s = true) :
    offerCommand a stall p w s = { s with cmds := s.cmds.set p (s.cmds.get p ++ [w]) } := by
  simp [offerCommand, hw, acceptCommand_of_open w ho]

/-- An offered command is accepted on an open port, or nothing happens. -/
theorem offerCommand_cases (a : Activity) (stall : Bool) (p : Port) (w : Command) (s : State) :
    offerCommand a stall p w s = s ∨
    (portOpen p s = true ∧ withholds a stall p s = false ∧
      offerCommand a stall p w s = { s with cmds := s.cmds.set p (s.cmds.get p ++ [w]) }) := by
  cases hw : withholds a stall p s with
  | true => exact .inl (by simp [offerCommand, hw])
  | false =>
    cases ho : portOpen p s with
    | false => exact .inl (by simp [offerCommand, hw, acceptCommand_of_closed w ho])
    | true => exact .inr ⟨rfl, rfl, offerCommand_of_not_withheld w hw ho⟩

end Sys2Proof.Machine
end

