-- ==== Sys2Proof/Laws/Render.lean ====
section
/-! SUPPORT. What a bin colours (42_render.md R185), and the pixels behind the linear index
(20_memory.md R70). -/

namespace Sys2Proof.Machine

/-- The pixels a bin colours, as R185 and R187 say them. -/
theorem binColours_iff (c : Config) (i : Nat) (m : Word32) (px py : Nat) :
    binColours c i m px py = true ↔
      xPos c i < c.W ∧ 1 ≤ binWidth c i m ∧ xPos c i ≤ px ∧ px ≤ xPos c i + binWidth c i m - 1 ∧
      py < c.H ∧ (py = 0 ∨ py = c.H - 1 ∨ px = xPos c i ∨ px = xPos c i + binWidth c i m - 1) := by
  simp only [binColours, Bool.and_eq_true, Bool.or_eq_true, decide_eq_true_eq, beq_iff_eq, and_assoc,
    or_assoc]

/-- A pixel of the frame is red exactly where some bin colours it, and black elsewhere (R186). -/
theorem framePixel_eq (c : Config) (spectrum : Nat → Word32) (px py : Nat) :
    ((∃ i, i < c.N ∧ binColours c i (spectrum i) px py = true) → framePixel c spectrum px py = red) ∧
    ((¬ ∃ i, i < c.N ∧ binColours c i (spectrum i) px py = true) → framePixel c spectrum px py = black) := by
  have key : (List.range c.N).any (fun i => binColours c i (spectrum i) px py) = true ↔
      ∃ i, i < c.N ∧ binColours c i (spectrum i) px py = true := by simp
  exact ⟨fun h => by rw [framePixel, if_pos (key.2 h)], fun h => by rw [framePixel, if_neg (fun k => h (key.1 k))]⟩

theorem width_pos (c : Config) : 0 < c.W := Nat.succ_pos _

theorem height_pos (c : Config) : 0 < c.H := Nat.succ_pos _

/-- A pixel on the image has a linear index in the surface. -/
theorem pixelIndex_lt (c : Config) {x y : Nat} (hx : x < c.W) (hy : y < c.H) :
    pixelIndex c x y < c.W * c.H := by
  have := Nat.mul_le_mul_right c.W (show y + 1 ≤ c.H from hy)
  simp only [pixelIndex, Nat.mul_comm c.W c.H]
  rw [Nat.add_mul] at this
  omega

/-- The column of a linear index. -/
theorem pixelIndex_mod (c : Config) {x : Nat} (y : Nat) (hx : x < c.W) : pixelIndex c x y % c.W = x := by
  rw [pixelIndex, Nat.mul_comm, Nat.mul_add_mod, Nat.mod_eq_of_lt hx]

/-- The row of a linear index. -/
theorem pixelIndex_div (c : Config) {x : Nat} (y : Nat) (hx : x < c.W) : pixelIndex c x y / c.W = y := by
  rw [pixelIndex, Nat.mul_comm, Nat.mul_add_div (width_pos c), Nat.div_eq_of_lt hx, Nat.add_zero]

end Sys2Proof.Machine
end

