-- ==== Sys2Proof/Tests/Slice0.lean ====
section
/-! SUPPORT. The tests' small states, and the tests of decoding and well-formedness. Expected values come from
the spec's tables and vectors (95_test_vectors.md, 30_encoding.md R113), named in each docstring. -/

namespace Sys2Proof.Tests

open Sys2Proof.Machine

/-- The parameters of 95_test_vectors.md: `N = 4`, `W = H = 8`, `B = 4`, `REAL_FLOOR`, default `MAGMAP`. -/
def tiny (e : Engine) : Config :=
  { blockLog := 2, widthM1 := 7, heightM1 := 7, divisorM1 := 3, xMode := .realFloor,
    magPolicy := .truncate, engine := e, tickMaxCycles := 0 }

/-- From reset, a command issued on port `p`. -/
def fresh (e : Engine) (p : Port) : State := onPort p (State.resetWith (tiny e) 0)

/-- 1.0, 2.0, 3.0, 4.0. -/
def oneToFour : List Word32 := [0x3F800000, 0x40000000, 0x40400000, 0x40800000]

/-- A Fifo full of 1.0 to 4.0 on port P. -/
def full : State :=
  { fresh .testIdentity .producer with
      mem := { fifo := fillCells 4 (fun j => oneToFour.getD j 0), tbuf := [], surf := [] }, idx := 4 }

/-- A transferred block of 1.0 to 4.0 on port C (start of V-K2). -/
def transferred (e : Engine) : State :=
  { fresh e .consumer with
      mem := { fifo := [], tbuf := fillCells 8 (fun j => oneToFour.getD j 0), surf := [] }, ready := true }

/-- The outcome is a next state in which `f` holds. -/
def after (o : Host.Outcome State Fault Refusal) (f : State → Bool) : Bool :=
  match o with
  | .next t => f t
  | .fault _ => false
  | .refused _ => false

/-! Decoding: words written out from R101, R102, R104 (the table of R113). -/

theorem test_decode_nop : decode 0x0000000000000000 = .ok .nop := by decide
theorem test_decode_push : decode 0x010000003F800000 = .ok (.push 0x3F800000) := by decide
theorem test_decode_tick : decode 0x1000000000000000 = .ok .tick := by decide
theorem test_decode_rdTbuf : decode 0x1100000000000003 = .ok (.rdTbuf 3) := by decide
theorem test_decode_rdPixel : decode 0x2000000000020001 = .ok (.rdPixel 1 2) := by decide
theorem test_decode_rdSurface : decode 0x2100000000000000 = .ok .rdSurface := by decide
theorem test_decode_rdStatus : decode 0x3000000000000000 = .ok .rdStatus := by decide
theorem test_decode_rdConfig : decode 0x3100000000000003 = .ok (.rdConfig 3) := by decide

/-- V-E1, V-E7, V-E8, V-E11, V-E17: rejected words. -/
theorem test_decode_rejects :
    decode 0x0200000000000000 = .error .unknownOpcode ∧
    decode 0x010000013F800000 = .error (.reservedBits .push) ∧
    decode 0x1000000000000001 = .error (.reservedBits .tick) ∧
    decode 0x1100000000010000 = .error (.reservedBits .rdTbuf) ∧
    decode 0x3100000000000100 = .error (.reservedBits .rdConfig) := by decide

/-- The table's row of `RD_PIXEL`, through the host's bit numbers. -/
theorem test_decodeTableWord :
    decodeTableWord 64 0x2000000000020001 = some (.rdPixel 1 2) ∧ decodeTableWord 64 (255 * 2 ^ 56) = none := by
  decide

/-! WellFormed: each check refuses an ill-formed term. -/

theorem test_wellFormed_port : (Instr.push 0).wellFormed .consumer (tiny .library) = false := by decide
theorem test_wellFormed_tidx : (Instr.rdTbuf 8).wellFormed .consumer (tiny .library) = false := by decide
theorem test_wellFormed_x : (Instr.rdPixel 8 0).wellFormed .reader (tiny .library) = false := by decide
theorem test_wellFormed_y : (Instr.rdPixel 0 8).wellFormed .reader (tiny .library) = false := by decide
theorem test_wellFormed_sel : (Instr.rdConfig 6).wellFormed .producer (tiny .library) = false := by decide
theorem test_wellFormed_edge :
    (Instr.rdTbuf 7).wellFormed .consumer (tiny .library) = true ∧
    (Instr.rdPixel 7 7).wellFormed .reader (tiny .library) = true ∧
    (Instr.rdConfig 5).wellFormed .reader (tiny .library) = true := by decide

/-- Parameters out of range are refused (U9, U17), and the reference ones are not. -/
theorem test_ofParams :
    Config.ofParams 3 8 8 4 0 .truncate .library 0 = .error .blockSize ∧
    Config.ofParams 4 0 8 4 0 .truncate .library 0 = .error .width ∧
    Config.ofParams 4 8 65537 4 0 .truncate .library 0 = .error .height ∧
    Config.ofParams 4 8 8 0 0 .truncate .library 0 = .error .divisor ∧
    Config.ofParams 4 8 8 4 2 .truncate .library 0 = .error .xMode ∧
    Config.ofParams 4 8 8 4 0 .truncate .library 0 = .ok (tiny .library) := by decide

end Sys2Proof.Tests
end

