-- ==== Sys2Proof/Tests/Commands.lean ====
section
/-! SUPPORT. Tests of the commands, one step each; expected values from 95_test_vectors.md, named in each docstring. -/

namespace Sys2Proof.Tests

open Sys2Proof.Machine

/-- V-F3. -/
theorem test_push_transfers :
    after (exec (.push 0x40A00000) full) (fun t =>
      t.mem.tbuf == fillCells 8 (fun j => oneToFour.getD j 0) && t.ready && t.idx == 1 &&
        cellAt t.mem.fifo 0 == some 0x40A00000 && cellAt t.mem.fifo 1 == some 0x40000000 &&
        statusWord t == 0x00010001) = true := by decide

/-- V-F1. -/
theorem test_push_first :
    after (exec (.push 0x3F800000) (fresh .library .producer)) (fun t =>
      t.mem.fifo == [(0, 0x3F800000)] && t.mem.tbuf == [] && statusWord t == 0x00010000) = true := by decide

/-- V-K2 under `T_DFT`: the magnitudes, the flags, and pixels of V-R1 (V-D1). -/
theorem test_tick_dft :
    after (exec .tick (transferred .referenceDft)) (fun t =>
      t.mem.tbuf == fillCells 8
          (fun j => [0x41200000, 0x403504F3, 0x40000000, 0x403504F3, 0, 0, 0, 0].getD j 0) &&
        cellAt t.mem.surf 25 == some 0x000000 && cellAt t.mem.surf 26 == some 0xFF0000 &&
        cellAt t.mem.surf 63 == some 0xFF0000 && !t.ready && t.rendered) = true := by
  decide +kernel

/-- V-E4: a tick on port P. -/
theorem test_tick_wrong_port :
    after (exec .tick (onPort .producer (transferred .library))) (fun t =>
      t.ready && !t.rendered && statusWord t == 0x00000025) = true := by decide

/-- V-D3. -/
theorem test_rdTbuf :
    after (exec (.rdTbuf 3) (transferred .library)) (fun t => t.resps.get .consumer == [0x40800000]) = true := by
  decide

/-- V-E12. -/
theorem test_rdTbuf_range :
    after (exec (.rdTbuf 8) (fresh .library .consumer)) (fun t =>
      t.resps.get .consumer == [0] && statusWord t == 0x00000054) = true := by decide

/-- V-D1: a red pixel, column 2 of row 3. -/
theorem test_rdPixel :
    after (exec (.rdPixel 2 3)
        { fresh .library .reader with
            mem := { fifo := [], tbuf := [], surf := [(25, 0), (26, 0xFF0000)] }, rendered := true })
      (fun t => t.resps.get .reader == [0x00FF0000]) = true := by decide

/-- V-E14. -/
theorem test_rdPixel_range :
    after (exec (.rdPixel 0 8) (fresh .library .reader)) (fun t =>
      t.resps.get .reader == [0] && statusWord t == 0x00000044) = true := by decide

/-- R241: row-major order, on a surface whose pixel at linear index `j` is `j`. -/
theorem test_rdSurface :
    after (exec .rdSurface
        { fresh .library .reader with
            mem := { fifo := [], tbuf := [], surf := fillCells 64 (fun j => BitVec.ofNat 24 j) } })
      (fun t => t.resps.get .reader == (List.range 64).map (fun j => BitVec.ofNat 32 j)) = true := by
  decide +kernel

/-- V-E21: 64 words, all zero. -/
theorem test_rdSurface_reserved :
    after (runWord 0x2100000000000001 (fresh .library .reader)) (fun t =>
      t.resps.get .reader == List.replicate 64 0 && statusWord t == 0x00000034) = true := by decide +kernel

/-- V-D4: `ECODE = 4` with `idx = 0`, read while halted. -/
theorem test_rdStatus :
    after (exec .rdStatus { fresh .library .reader with err := true, ecode := 4 }) (fun t =>
      t.resps.get .reader == [0x00000044]) = true := by decide

/-- V-D4: after 8 pushes, a tick and push 9. -/
theorem test_rdStatus_ready_rendered :
    after (exec .rdStatus { fresh .library .producer with idx := 1, ready := true, rendered := true })
      (fun t => t.resps.get .producer == [0x00010003]) = true := by decide

/-- V-D5 and V-E23: `RD_CONFIG 3` with this section's parameters, halted. -/
theorem test_rdConfig :
    after (exec (.rdConfig 3) { fresh .library .consumer with err := true, ecode := 2 }) (fun t =>
      t.resps.get .consumer == [4]) = true := by decide

/-- V-D5: `W = 65536` reads whole. -/
theorem test_rdConfig_wide :
    after (exec (.rdConfig 1)
        { fresh .library .consumer with cfg := { tiny .library with widthM1 := 65535 } })
      (fun t => t.resps.get .consumer == [0x00010000]) = true := by decide

/-- V-E10: `NOP` with bit 0 set. -/
theorem test_nop_reserved :
    after (runWord 1 (fresh .library .producer)) (fun t => statusWord t == 0x00000034) = true := by decide

/-- V-E18, V-E19, V-E20: the first check that fails decides; V-E22: the first fault is kept. -/
theorem test_fault_priority :
    after (runWord 0x0100010000000000 (fresh .library .consumer)) (fun t => statusWord t == 0x00000024) = true ∧
    after (runWord 0x0500000100000000 (fresh .library .consumer)) (fun t => statusWord t == 0x00000014) = true ∧
    after (runWord 0x2000000100090009 (fresh .library .reader)) (fun t => statusWord t == 0x00000034) = true ∧
    after (runWord 0x0200000000000000 { fresh .library .producer with err := true, ecode := 5 })
      (fun t => statusWord t == 0x00000054) = true := by decide

end Sys2Proof.Tests
end

