-- ==== Sys2Proof/Tests/Parts.lean ====
section
/-! SUPPORT. Tests of the micro-operations, the assembler and the first step after reset; expected values from
95_test_vectors.md and 30_encoding.md, named in each docstring. -/

namespace Sys2Proof.Tests

open Sys2Proof.Machine

/-! Micro-operations. -/

/-- V-T2, V-T6 (bins 0 and 1), V-T7 and V-T8. -/
theorem test_dft :
    dftWord 2 [0x3F800000, 0, 0, 0, 0, 0, 0, 0] 3 = 0x3F800000 ∧
    dftWord 2 [0x3F000000, 0x3F000000, 0, 0, 0, 0, 0, 0] 0 = 0x3F800000 ∧
    dftWord 2 [0x3F000000, 0x3F000000, 0, 0, 0, 0, 0, 0] 1 = 0x3F3504F3 ∧
    dftWord 1 [0x3F800000, 0x40000000, 0, 0] 1 = 0x3F800000 ∧
    dftWord 0 [0x40400000, 0] 0 = 0x40400000 := by decide +kernel

/-- V-T4: an exact zero, where a floating computation gives a tiny number. -/
theorem test_dft_zero : dftWord 2 [0x3F800000, 0xBF800000, 0x3F800000, 0xBF800000, 0, 0, 0, 0] 1 = 0 := by
  decide +kernel

/-- V-R6 and V-R8: the default `MAGMAP`. -/
theorem test_magMap :
    [0x7FC00000, 0xBF800000, 0x3F7FFFFF, 0x7F800000, 0x80000000, 0x3FC00000, 0x41000000, 0x4E6E6B28].map
      (magMap (tiny .library)) = [0, 0, 0, 8, 0, 1, 8, 8] := by decide +kernel

/-- V-R10 and V-R9: the left edges under `B = 3` and `B = 2`. -/
theorem test_xPos :
    (List.range 4).map (xPos { tiny .library with divisorM1 := 2 }) = [0, 2, 5, 8] ∧
    (List.range 4).map (xPos { tiny .library with divisorM1 := 1 }) = [0, 4, 8, 12] ∧
    (List.range 5).map (xPos { tiny .library with xMode := .intDiv }) = [0, 0, 0, 0, 8] := by decide

/-- V-R1: row 3 of the frame, and V-R5's. -/
theorem test_frame :
    (List.range 8).map (fun x => framePixel (tiny .library)
        (fun i => [0x41200000, 0x403504F3, 0x40000000, 0x403504F3].getD i 0) x 3) =
      [red, black, red, red, red, red, red, red] ∧
    (List.range 8).map (fun x => framePixel (tiny .library)
        (fun i => [0x40400000, 0, 0, 0].getD i 0) x 3) =
      [red, black, red, black, black, black, black, black] := by decide +kernel

/-- R110, R111 and P2: a listing, each line's words and ports. -/
theorem test_assemble :
    assemble none [{ port := some .producer, op := .pushBlk [0x3F800000, 0x40000000] },
        { port := none, op := .rdStatus }, { port := some .consumer, op := .tick },
        { port := none, op := .rdB }] =
      .ok [(.producer, 0x010000003F800000), (.producer, 0x0100000040000000),
        (.producer, 0x3000000000000000), (.consumer, 0x1000000000000000),
        (.consumer, 0x3100000000000003)] := by decide

/-- P1: a line as it is written. -/
theorem test_parseLine :
    parseLine ['R', ':', ' ', 'R', 'D', '_', 'P', 'I', 'X', 'E', 'L', ' ', '1', ',', ' ', '0', 'x', '3', ' ', ';', ' ', 'x'] =
      .ok (some { port := some .reader, op := .rdPixel 1 3 }) := by decide +kernel

/-- G4: 1.0, 5.0, 0.5 and 10.0 as binary32 words (R111). -/
theorem test_pushF :
    [nearestFloat 1 1, nearestFloat 5 1, nearestFloat 5 10, nearestFloat 10 1, nearestFloat (-1) 1] =
      [0x3F800000, 0x40A00000, 0x3F000000, 0x41200000, 0xBF800000] := by decide +kernel

/-! The machine from reset: each table row's word runs as the first command. -/

theorem test_first_after_reset :
    [0x0000000000000000, 0x010000003F800000, 0x1000000000000000, 0x1100000000000003, 0x2000000000020001,
      0x2100000000000000, 0x3000000000000000, 0x3100000000000003].all
      (fun w => after (step (State.reset.withFetchWord 64 w)) (fun t => !t.err)) = true := by decide +kernel

end Sys2Proof.Tests
end

