-- ==== Sys2Proof/Tests/RunWitnesses.lean ====
section
/-! SUPPORT. Witnesses: states and operands that meet the statements' hypotheses (ticks, reads, the rest). -/

namespace Sys2Proof.Tests

open Sys2Proof.Machine

/-- `OnlyACursorAboveNStops`: a cursor above `N`. -/
theorem witness_stop :
    exec (.push 0) { full with idx := 5 } = .fault .fifoIndexOutOfRange := rfl

/-- `CursorClosedForm` with no push, in the middle and at the wrap, `FirstBlockWaitsForTheTick` at its least
length: runs of commands without faults that go on. -/
theorem witness_runs :
    (Claims.issue [(.consumer, .tick), (.reader, .rdStatus)]
      (fresh .testIdentity .reader)).map (fun t => t.idx) = some 0 ∧
    (Claims.issue ((List.range 5).map (fun j => (Port.producer, Instr.push (BitVec.ofNat 32 j))))
      (fresh .testIdentity .reader)).map (fun t => t.idx) = some 1 ∧
    (Claims.issue [(.producer, .push 1), (.consumer, .tick), (.producer, .push 2)]
      (fresh .testIdentity .reader)).map (fun t => t.idx) = some 2 ∧
    ((Claims.issue ((List.range 5).map (fun j => (Port.producer, Instr.push (BitVec.ofNat 32 j))))
      (fresh .testIdentity .reader)).map (fun t => t.ready)) = some true := by decide

/-- `TickNotReadyChangesNothing`. -/
theorem witness_tick_not_ready :
    (fresh .library .consumer).port = .consumer ∧ (fresh .library .consumer).ready = false := by decide

/-- `TickReadyTransformsAndConsumes`, `TickPaintsClosedFormFrame`, `TickLeavesMagnitudes`,
`RenderLoopPaintsClosedForm`: a ready state of finite words in canonical form. -/
theorem witness_tick_ready :
    (transferred .referenceDft).port = .consumer ∧ (transferred .referenceDft).err = false ∧
    (transferred .referenceDft).ready = true ∧ (transferred .referenceDft).cfg.engine ≠ .testIdentity ∧
    (∀ j, j < 8 → floatIsFinite (readTbuf (transferred .referenceDft) j) = true) ∧
    (transferred .referenceDft).mem.wf (tiny .referenceDft) = true := by decide +kernel

/-- `TickPaintsClosedFormFrame`: a red pixel at the right edge and a black one inside (V-R1). -/
theorem witness_frame :
    binColours (tiny .referenceDft) 0 0x41200000 7 3 = true ∧
    (List.range 4).any (fun i => binColours (tiny .referenceDft) i
      ([0x41200000, 0x403504F3, 0x40000000, 0x403504F3].getD i 0) 1 6) = false := by decide +kernel

/-- A transferred block whose first word is a NaN (V-F8). -/
def withNaN (e : Engine) : State :=
  writeTbufAll (transferred e) (fun j => if j = 0 then 0x7FC00000 else zeroWord)

/-- `FiniteTickIsAFunctionOfItsBlock`: two states with one block that differ elsewhere;
`NonFiniteTickLeavesFreeValues`, `StubTickLeavesTheBlock`: a block with a NaN. -/
theorem witness_blocks :
    (∀ j, j < 8 → ∃ v, cellAt (transferred .library).mem.tbuf j = some v ∧
      cellAt ({ transferred .library with draws := 7, idx := 3 } : State).mem.tbuf j = some v ∧
      floatIsFinite v = true) ∧
    (withNaN .referenceDft).ready = true ∧ (withNaN .referenceDft).err = false ∧
    (withNaN .referenceDft).port = .consumer ∧ (withNaN .referenceDft).cfg.engine ≠ .testIdentity ∧
    floatIsFinite (readTbuf (withNaN .referenceDft) 0) = false ∧
    (withNaN .testIdentity).cfg.engine = .testIdentity ∧ (withNaN .testIdentity).ready = true ∧
    cellAt (withNaN .testIdentity).mem.tbuf 0 = some 0x7FC00000 := by
  refine ⟨fun j hj => ⟨oneToFour.getD j 0, ?_, ?_, ?_⟩, by decide⟩ <;> revert j <;> decide

/-- `ScratchIsNeverRendered`: two states that differ in the scratch half. -/
theorem witness_scratch :
    ∀ j, j < 4 → readTbuf (transferred .library) j =
      readTbuf (writeTbufAll (transferred .library) (fun j => oneToFour.getD j 1)) j := by decide

/-- `MagMapCountsWholePixels`, `LeftEdgesAndOffScreenBins`: each class of magnitude word, each mode, and a
bin at the divisor. -/
theorem witness_render :
    (tiny .library).magPolicy = .truncate ∧ (tiny .library).xMode = .realFloor ∧
    ({ tiny .library with xMode := .intDiv } : Config).xMode = .intDiv ∧ (tiny .library).B ≤ 4 ∧
    (0x7FC00000 : Word32).toNat / 2 ^ 23 % 2 ^ 8 = 255 ∧ (0x7FC00000 : Word32).toNat % 2 ^ 23 ≠ 0 ∧
    (0x41000000 : Word32).toNat / 2 ^ 23 % 2 ^ 8 ≠ 255 := by decide

/-- `RdPixelAnswersThePixel`, `RdSurfaceAnswersOneFrame`, `RdTbufAnswersTheEntry`,
`RdConfigAnswersTheParameter`, at the last legal operands. -/
theorem witness_reads :
    (fresh .library .reader).err = false ∧ (7 : BitVec 16).toNat < (tiny .library).W ∧
    (7 : BitVec 16).toNat < (tiny .library).H ∧ (7 : BitVec 16).toNat < 2 * (tiny .library).N ∧
    (5 : BitVec 8).toNat ≤ 5 ∧ cellAt (fresh .library .reader).mem.surf 63 = none ∧
    cellAt (transferred .library).mem.tbuf 7 = some 0 := by decide

/-- `ReadsChangeNoState`, `ResponseFramingDependsOnOpcodeAlone`: reads that go on, one by a fault. -/
theorem witness_read_steps :
    after (exec (.rdConfig 5) (fresh .library .producer)) (fun t => !t.err) = true ∧
    after (exec (.rdConfig 6) (fresh .library .producer)) (fun t => t.err) = true ∧
    after (runWord 0x3100000000000006 (fresh .library .producer))
      (fun t => t.resps.get .producer == [0]) = true := by decide

/-- `ReadyChangesOnlyByTransferTickReset`, `OnlyTickWritesTheSurface`, `OnlyPushWritesCursorAndFifo`: steps
that set the flag and that clear it and paint. -/
theorem witness_changes :
    after (step (acceptCommand .producer 0x0100000040A00000 full)) (fun t => t.ready && t.idx == 1) = true ∧
    after (step (acceptCommand .consumer 0x1000000000000000 (transferred .testIdentity)))
      (fun t => !t.ready && t.mem.surf != []) = true := by decide +kernel

/-- `PortPNeverStalls`: a stall asked for during a tick. -/
theorem witness_offer :
    ((offerCommand { tickCycles := some 0, surfaceRead := true } true .producer 0 full).cmds.get .producer) = [0] ∧
    full.rst = false ∧ mayWithhold full.cfg .reader { tickCycles := some 0, surfaceRead := false } = true := by
  decide

/-- `PortCWaitsForTheTick`, `NothingWaitsBehindATick`: a `TICK` accepted on port C closes it, a block with
none and a halted one accept, and a stall is allowed below the bound and not at it. -/
theorem witness_port_c :
    portOpen .consumer (acceptCommand .consumer 0x1000000000000000 full) = false ∧
    portOpen .consumer (acceptCommand .consumer 0x1100000000000000 full) = true ∧
    portOpen .consumer { acceptCommand .consumer 0x1000000000000000 full with err := true } = true ∧
    mayWithhold { tiny .library with tickMaxCycles := 2 } .consumer { tickCycles := some 1, surfaceRead := false } =
      true ∧
    mayWithhold { tiny .library with tickMaxCycles := 2 } .consumer { tickCycles := some 2, surfaceRead := false } =
      false ∧
    (∃ t, deliverResponse .reader (respond [1] (fresh .library .reader)) = some (1, t)) := by
  refine ⟨by decide, by decide, by decide, by decide, by decide, _, rfl⟩

/-- `PortCWaitsForTheTick` where its clauses meet: a command offered at the bound of R307, one offered past it
in a block that has halted, and one offered with no `TICK` in progress while the implementation would stall. -/
theorem witness_port_c_bound :
    let s : State := { full with cfg := { full.cfg with tickMaxCycles := 2 } }
    offerCommand { tickCycles := some 2, surfaceRead := false } false .consumer 0 s = s ∧
    (offerCommand { tickCycles := some 3, surfaceRead := false } true .consumer 0
      { s with err := true }).cmds.get .consumer = [0] ∧
    (offerCommand { tickCycles := none, surfaceRead := true } true .consumer 0 s).cmds.get .consumer = [0] := by
  decide

/-- `HaltedBlockKeepsEveryPortFree`, `PortRWaitsOnlyForATickOrASurfaceRead`: one offer on port R during a `TICK`
and an `RD_SURFACE`, in a halted block and in a running one. -/
theorem witness_port_r :
    let busy : Activity := { tickCycles := some 0, surfaceRead := true }
    (offerCommand busy true .reader 0 { full with err := true }).cmds.get .reader = [0] ∧
    offerCommand busy true .reader 0 full = full ∧
    (offerCommand busy false .reader 0 full).cmds.get .reader = [0] := by
  decide

/-- `FetchWordIsServedNext`, `IllegalParametersAreRefused`, `AssemblerRefusesWideLiterals`: a word, legal
parameters, a listing that assembles, and a first line that names no port. -/
theorem witness_others :
    (0x1000000000000000 < 2 ^ 64) ∧ (4 = 2 ^ 2) ∧
    assemble (some .reader) [{ port := none, op := .nop }] = .ok [(.reader, 0)] ∧
    ({ port := none, op := .nop } : SourceLine).port = none := by decide

end Sys2Proof.Tests
end

