-- ==== Sys2Proof/Tests/Witnesses.lean ====
section
/-! SUPPORT. Witnesses: states and operands that meet the statements' hypotheses (ports, faults, pushes). -/

namespace Sys2Proof.Tests

open Sys2Proof.Machine

/-- `ResetInputRestoresResetValues`, `ResetEstablishesInvariant`. -/
theorem witness_reset : (assertReset full).rst = true := by decide

/-- A step from reset goes on, with nothing waiting. -/
theorem witness_idle : after (step (fresh .library .producer)) (fun t => t == fresh .library .producer) = true := by
  decide

/-- The invariant of `EveryStepKeepsInvariant`, `StepNeverStops` holds after reset with these parameters. -/
theorem witness_invariant : (fresh .library .producer).Inv := by
  constructor <;> simp [fresh, onPort, State.resetWith, Memory.unwritten, Memory.wf, cellsRising, cellsBelow]

/-- `StepExecutesServedCommand`, `GrantedPortIsServed`, `PortsKeepTheirOrder`: a command that decodes, and
a word that does not, waiting on the served port. -/
theorem witness_served :
    servedPort (acceptCommand .consumer 0x1000000000000000 (fresh .library .producer)) = some .consumer ∧
    servedPort (acceptCommand .reader 2 (fresh .library .producer)) = some .reader ∧
    decode 0x1000000000000000 = .ok .tick ∧ decode 2 = .error (.reservedBits .nop) := by decide

/-- `EncodeOfDecodeIsTheWord`. -/
theorem witness_decodes : decode 0x3100000000000005 = .ok (.rdConfig 5) := by decide

/-- `FaultsFollowCheckOrder`, one word for each code and one for none, at the range's edges. -/
theorem witness_faults :
    Claims.faultCode (tiny .library) .producer 0x0200000000000000 = some 1 ∧
    Claims.faultCode (tiny .library) .reader 0x1100000000000000 = some 2 ∧
    Claims.faultCode (tiny .library) .reader 0x2100000000000001 = some 3 ∧
    Claims.faultCode (tiny .library) .reader 0x2000000000000008 = some 4 ∧
    Claims.faultCode (tiny .library) .consumer 0x1100000000000008 = some 5 ∧
    Claims.faultCode (tiny .library) .producer 0x3100000000000006 = some 6 ∧
    Claims.faultCode (tiny .library) .consumer 0x1100000000000007 = none ∧
    after (runWord 0x1100000000000007 (fresh .library .consumer)) (fun t => !t.err) = true := by decide

/-- `HaltedCommandsHaveNoEffect`, `OnlyResetLeavesTheHaltedState`: a halted state with a command of each kind
waiting that goes on. -/
theorem witness_halted :
    after (step (acceptCommand .producer 0x010000003F800000
        { fresh .library .producer with err := true, ecode := 2 }))
      (fun t => t.err && t.idx == 0) = true ∧
    (Instr.push 0x3F800000).wellFormed .producer (tiny .library) = true ∧
    (Instr.rdSurface).wellFormed .reader (tiny .library) = true := by decide

/-- `PushWritesSampleAtCursor` with the last slot free, `PushOnFullTransfersBlock`, and `PushOnFullDropsBlock`,
`ReadyBlockIsNeverOverwritten`, `PushDuringTickIsPushBeforeTick` with the flag set. -/
theorem witness_push :
    (full.port = .producer ∧ full.err = false ∧ full.idx.toNat = full.cfg.N ∧ full.ready = false) ∧
    ({ full with idx := 3 } : State).idx.toNat + 1 = full.cfg.N ∧
    ({ full with ready := true } : State).idx.toNat = full.cfg.N ∧
    after (exec (.push 0) { full with ready := true }) (fun t => t.ready && t.idx == 1) = true := by decide

end Sys2Proof.Tests
end

/-! PROOFS. Ticks of a running block on a set flag: the command reaches the ready path, and what it leaves in
the Transform Buffer (41_transform.md R160, 44_tick.md R222). -/

namespace Sys2Proof.Machine

/-- On port C of a running block whose flag is set, a tick takes the ready path (44_tick.md R222). -/
theorem exec_tick_of_ready {s : State} (hport : s.port = .consumer) (herr : s.err = false)
    (hready : s.ready = true) : exec .tick s = .next (tickReady s) := by
  have hwf : Instr.tick.wellFormed s.port s.cfg = true := by rw [hport]; rfl
  rw [exec_of_runs hwf (.inl herr)]
  exact if_pos hready

/-- Each word a tick leaves in the Transform Buffer is the transform's output word (41_transform.md R160). -/
theorem cellAt_tickReady_tbuf (s : State) {j : Nat} (hj : j < 2 * s.cfg.N) :
    cellAt (tickReady s).mem.tbuf j = some (transformWord s.cfg s.draws (tbufWords s) j) := by
  rw [tickReady_tbuf, cellAt_fillCells, if_pos hj]

/-- One word that is not finite makes the transform's whole input not finite. -/
theorem tbufWords_all_finite_eq_false {s : State} {j : Nat} (hj : j < 2 * s.cfg.N)
    (hword : floatIsFinite (readTbuf s j) = false) : (tbufWords s).all floatIsFinite = false :=
  List.all_eq_false.2
    ⟨readTbuf s j, List.mem_map_of_mem (List.mem_range.2 hj), Bool.eq_false_iff.1 hword⟩

/-- Settles O46: the tick takes the ready path, and on an input that is not finite an engine other than the
stub gives the free value of the draw as each output word (93_implementation_defined.md U6). -/
theorem nonFiniteTickLeavesFreeValues : Obligations.NonFiniteTickLeavesFreeValues := by
  rintro s hport herr hready hengine ⟨j, hj, hword⟩
  refine ⟨tickReady s, exec_tick_of_ready hport herr hready, herr, rfl, rfl, fun k hk => ?_⟩
  have hinput := tbufWords_all_finite_eq_false hj hword
  calc cellAt (tickReady s).mem.tbuf k
    _ = some (transformWord s.cfg s.draws (tbufWords s) k) := cellAt_tickReady_tbuf s hk
    _ = some (Config.freeTransformWord s.draws (tbufWords s) k) := by
      rw [transformWord_of_not_finite hengine hinput]

end Sys2Proof.Machine

/-! PROOFS. Reset: the step that applies it, the storage it leaves, and the ports while it is asserted
(10_state.md R45 to R50, 70_reset_and_hazards.md R300, R301). -/

namespace Sys2Proof.Machine

/-- With the reset input asserted a step applies the reset, whatever waits on the ports (R300). -/
theorem step_of_reset {s : State} (hrst : s.rst = true) : step s = .next (applyReset s) := if_pos hrst

/-- No storage of a block that a reset leaves has been written at any index (R48 to R50). -/
theorem cellAt_applyReset (s : State) (j : Nat) :
    cellAt (applyReset s).mem.fifo j = none ∧ cellAt (applyReset s).mem.tbuf j = none ∧
      cellAt (applyReset s).mem.surf j = none :=
  ⟨rfl, rfl, rfl⟩

/-- A reset leaves no command and no response on any port (R301). -/
theorem applyReset_ports_empty (s : State) (p : Port) :
    (applyReset s).cmds.get p = [] ∧ (applyReset s).resps.get p = [] := by
  cases p <;> exact ⟨rfl, rfl⟩

/-- Every port is closed while reset is asserted (R301). -/
theorem portOpen_of_reset {s : State} (p : Port) (hrst : s.rst = true) : portOpen p s = false := by
  simp [portOpen, hrst]

/-- Settles O1: the step is `applyReset`, whose registers, storage and ports hold the reset values, and every
port is closed until then. -/
theorem resetInputRestoresResetValues : Obligations.ResetInputRestoresResetValues := by
  refine ⟨fun s hrst => ?_, rfl, rfl, rfl, rfl, rfl⟩
  have hclosed (p : Port) (w : Command) : acceptCommand p w s = s :=
    acceptCommand_of_closed w (portOpen_of_reset p hrst)
  exact ⟨applyReset s, step_of_reset hrst, rfl, rfl, rfl, rfl, rfl, rfl, rfl, cellAt_applyReset s,
    applyReset_ports_empty s, hclosed⟩

end Sys2Proof.Machine

/-! PROOFS. What the commands leave of storage: a read changes none of it, a push on a set flag touches the
Fifo and the cursor alone, and what a tick computes depends on neither (20_memory.md R76, R83, R86). -/

namespace Sys2Proof.Machine

/-- Settles O36: behind the shared checks a command other than `PUSH` and `TICK` raises a fault, answers zeros
in a halted block, or answers its words, and a well-formed one raises no fault. -/
theorem readsChangeNoState : Obligations.ReadsChangeNoState := by
  intro s t i hpush htick h
  rw [exec_eq_guarded] at h
  obtain ⟨k, hfault, rfl⟩ | ⟨-, -, -, rfl⟩ | ⟨-, -, heffect⟩ := guarded_cases h
  · have hillFormed : ¬ i.wellFormed s.port s.cfg = true := fun hwf => by
      simp [(commandFault_none_iff _ _ _).2 hwf] at hfault
    simp [hillFormed]
  · simp
  · obtain ⟨ws, rfl, -, -⟩ | ⟨sample, rfl, -, -⟩ | ⟨rfl, -, -⟩ := effect_cases heffect
    · simp
    · exact absurd rfl hpush
    · exact absurd rfl htick

/-- While the flag is set the fullness check finds a drop, which moves the cursor and nothing else
(40_fifo.md R143, R144). -/
theorem checkFullness_of_ready {s : State} (hready : s.ready = true) :
    checkFullness s = setIdx (checkFullness s).idx s := by
  by_cases hfull : s.idx.toNat = s.cfg.N
  · simp [checkFullness_full s hfull, hready]
  · rw [checkFullness_not_full s hfull]; rfl

/-- While the flag is set a command leaves the Transform Buffer and the flag, or is a tick, which clears the
flag (R83). -/
theorem effect_of_ready {i : Instr} {s t : State} (hready : s.ready = true) (h : effect i s = .next t) :
    (t.mem.tbuf = s.mem.tbuf ∧ t.ready = true) ∨ (i = .tick ∧ t.ready = false) := by
  obtain ⟨ws, rfl, -, -⟩ | ⟨sample, rfl, -, rfl⟩ | ⟨rfl, -, rfl⟩ := effect_cases h
  · exact .inl ⟨rfl, hready⟩
  · rw [checkFullness_of_ready hready]
    exact .inl ⟨rfl, hready⟩
  · exact .inr ⟨rfl, rfl⟩

/-- While the flag is set a command word leaves the Transform Buffer, unless it clears the flag (R83). -/
theorem runWord_keeps_tbuf {w : Command} {s t : State} (hready : s.ready = true) (hready' : t.ready = true)
    (h : runWord w s = .next t) : t.mem.tbuf = s.mem.tbuf := by
  obtain ⟨k, n, rfl⟩ | ⟨i, -, -, -, -, rfl⟩ | ⟨i, -, -, -, heffect⟩ := runWord_cases h
  · simp
  · simp
  · obtain ⟨htbuf, -⟩ | ⟨-, hclear⟩ := effect_of_ready hready heffect
    · exact htbuf
    · rw [hready'] at hclear; cases hclear

/-- Settles O39: a push that runs is no tick, and each step that keeps the flag is a command word that does. -/
theorem readyBlockIsNeverOverwritten : Obligations.ReadyBlockIsNeverOverwritten := by
  constructor
  · intro s t sample hready h
    rw [exec_eq_guarded] at h
    obtain ⟨k, -, rfl⟩ | ⟨-, -, -, rfl⟩ | ⟨-, -, heffect⟩ := guarded_cases h
    · simpa using hready
    · simpa using hready
    · obtain hkept | ⟨⟨⟩, -⟩ := effect_of_ready hready heffect
      exact hkept
  · intro s t hrst hready hready' h
    obtain ⟨hrst', -⟩ | ⟨-, -, rfl⟩ | ⟨p, w, u, -, -, -, hrun, rfl⟩ := step_cases h
    · rw [hrst] at hrst'; cases hrst'
    · rfl
    · have hkept : u.mem.tbuf = (takeCommand s p).mem.tbuf := runWord_keeps_tbuf hready hready' hrun
      simpa using hkept

/-- On port P of a running block whose flag is set, a push writes one Fifo word and moves the cursor (R86,
40_fifo.md R145). -/
theorem exec_push_of_ready {s : State} (sample : Word32) (hport : s.port = .producer) (herr : s.err = false)
    (hready : s.ready = true) (hidx : s.idx.toNat ≤ s.cfg.N) :
    ∃ i j, exec (.push sample) s = .next (setIdx i (writeFifo s j sample)) := by
  have hwf : (Instr.push sample).wellFormed s.port s.cfg = true := by rw [hport]; rfl
  have hslot : (checkFullness s).idx.toNat < (checkFullness s).cfg.N := by
    simpa using checkFullness_idx_lt s hidx
  refine ⟨(checkFullness s).idx + 1, (checkFullness s).idx.toNat, ?_⟩
  calc exec (.push sample) s
    _ = writeSample sample (checkFullness s) := exec_of_runs hwf (.inl herr)
    _ = .next (setIdx ((checkFullness s).idx + 1)
          (writeFifo (checkFullness s) (checkFullness s).idx.toNat sample)) := writeSample_next _ _ hslot
    _ = _ := by rw [checkFullness_of_ready hready]; rfl

section TickInput

variable {s t : State} (hcfg : t.cfg = s.cfg) (htbuf : t.mem.tbuf = s.mem.tbuf) (hdraws : t.draws = s.draws)
include hcfg htbuf hdraws

/-- The transform reads the Transform Buffer alone, so a tick leaves the same words there in two states that
agree on it (41_transform.md R160). -/
theorem tickReady_tbuf_congr : (tickReady t).mem.tbuf = (tickReady s).mem.tbuf := by
  have hread : readTbuf t = readTbuf s := by funext j; simp [readTbuf, htbuf, hdraws]
  simp [tbufWords, hcfg, hdraws, hread]

/-- The frame a tick leaves is the same in two states that agree on the Transform Buffer (44_tick.md R222). -/
theorem tickReady_surf_congr : (tickReady t).mem.surf = (tickReady s).mem.surf := by
  have htransformed : (transformInPlace t).mem.tbuf = (transformInPlace s).mem.tbuf :=
    tickReady_tbuf_congr hcfg htbuf hdraws
  have hread : readTbuf (transformInPlace t) = readTbuf (transformInPlace s) := by
    funext j
    rw [readTbuf, readTbuf, htransformed, transformInPlace_draws, transformInPlace_draws, hdraws]
  rw [tickReady_surf, tickReady_surf, hcfg, hread]

end TickInput

/-- Settles O41: the push changes one Fifo word and the cursor, both ticks take the ready path, and the
ready path reads neither. -/
theorem pushDuringTickIsPushBeforeTick : Obligations.PushDuringTickIsPushBeforeTick := by
  intro s sample herr hready hidx
  obtain ⟨i, j, hpush⟩ := exec_push_of_ready (s := onPort .producer s) sample rfl herr hready hidx
  exact ⟨_, _, _, hpush, exec_tick_of_ready rfl herr hready, exec_tick_of_ready rfl herr hready,
    ⟨rfl, rfl, rfl, rfl, rfl, rfl, rfl⟩, ⟨rfl, rfl, rfl, rfl⟩, tickReady_tbuf_congr rfl rfl rfl,
    tickReady_surf_congr rfl rfl rfl, rfl, rfl, rfl, rfl, rfl⟩

end Sys2Proof.Machine

/-! PROOFS. Encoding and response framing: decoding gives an encoded command back, OPC alone names the opcode
of a word and with it the number of response words, and every command adds that many (30_encoding.md R102,
R104, R106). -/

namespace Sys2Proof

/-- ARG of a command reads back as the command's operands (R102). -/
@[simp] theorem decodeArg_arg (i : Instr) : decodeArg i.opcode i.arg = some i := by
  cases i <;> simp [decodeArg, Instr.opcode, Instr.arg]

/-- Decoding the word of a command gives the command back (R101, R104). -/
@[simp] theorem decode_encode (i : Instr) : decode (encode i) = .ok i := by simp [decode]

/-- Settles O6: each row's encoding is computed, and the command's word decodes to the command. -/
theorem exampleEncodingsOfTheSpec : Obligations.ExampleEncodingsOfTheSpec := by
  intro e he
  have henc : encode e.1 = e.2 := by revert e; decide
  exact ⟨henc, henc ▸ decode_encode e.1⟩

/-- Only an opcode's own byte is mapped to it (R104). -/
theorem byte_of_opcodeOfByte {b : BitVec 8} {op : Opcode} (h : opcodeOfByte b = some op) : b = op.byte := by
  unfold opcodeOfByte at h
  split_ifs at h <;> cases h <;> assumption

/-- The operands read from ARG are those of the opcode they are read for (R102). -/
theorem opcode_of_decodeArg {op : Opcode} {arg : Word32} {i : Instr} (h : decodeArg op arg = some i) :
    i.opcode = op := by
  cases op <;> simp only [decodeArg, Option.ite_none_right_eq_some, Option.some.injEq] at h
  case push | rdPixel => subst h; rfl
  all_goals obtain ⟨-, rfl⟩ := h; rfl

/-- The opcode that decoding a word finds, rejected or not. -/
def decodedOpcode : Except DecodeReject Instr → Option Opcode
  | .ok i => some i.opcode
  | .error .unknownOpcode => none
  | .error (.reservedBits op) => some op

/-- Whatever a word decodes to, its opcode is the one that OPC names (R104, R108). -/
theorem decodedOpcode_decode (w : Command) : decodedOpcode (decode w) = opcodeOfByte (opcField w) := by
  unfold decode
  cases opcodeOfByte (opcField w) with
  | none => rfl
  | some op =>
    by_cases hrsv : rsvField w = 0
    · cases harg : decodeArg op (argField w) with
      | none => simp [hrsv, harg, decodedOpcode]
      | some i => simp [hrsv, harg, decodedOpcode, opcode_of_decodeArg harg]
    · simp only [if_neg hrsv, decodedOpcode]

end Sys2Proof

namespace Sys2Proof.Machine

/-- The value of OPC is the word's number from bit 56 (R101). -/
theorem opcField_toNat (w : Command) : (opcField w).toNat = w.toNat / 2 ^ 56 := by
  simp only [opcField, BitVec.extractLsb'_toNat, Nat.shiftRight_eq_div_pow]
  omega

/-- The response count of R106 is the framing of the opcode that OPC names, and 0 for an unassigned OPC. -/
theorem responseCount_eq_frameWords (c : Config) (w : Command) :
    Claims.responseCount c w = (opcodeOfByte (opcField w)).elim 0 (frameWords c) := by
  rw [Claims.responseCount, ← opcField_toNat]
  generalize opcField w = b
  cases hop : opcodeOfByte b with
  | some op =>
    rw [byte_of_opcodeOfByte hop]
    cases op <;> rfl
  | none =>
    have hunassigned (op : Opcode) : b.toNat ≠ op.byte.toNat := fun hb => by
      simp [BitVec.eq_of_toNat_eq hb] at hop
    have hone : b.toNat ∉ [0x11, 0x20, 0x30, 0x31] := by
      simpa using ⟨hunassigned .rdTbuf, hunassigned .rdPixel, hunassigned .rdStatus, hunassigned .rdConfig⟩
    exact (if_neg hone).trans (if_neg (hunassigned .rdSurface))

@[simp] theorem length_surfaceWords (s : State) : (surfaceWords s).length = s.cfg.W * s.cfg.H := by
  simp [surfaceWords]

/-- `t` has `n` words more than `s` on the response stream of the issuing port, after those before, and the
same words on the other streams (R106). -/
def AddsResponses (n : Nat) (s t : State) : Prop :=
  ∃ ws : List Word32, ws.length = n ∧ t.resps = s.resps.set s.port (s.resps.get s.port ++ ws)

section AddsResponses

variable {s t : State}

theorem respond_addsResponses {ws : List Word32} {n : Nat} (h : ws.length = n) (s : State) :
    AddsResponses n s (respond ws s) :=
  ⟨ws, h, rfl⟩

theorem addsResponses_zero (h : t.resps = s.resps) : AddsResponses 0 s t := ⟨[], rfl, by simp [h]⟩

theorem raiseFault_addsResponses (k : FaultCode) (n : Nat) (s : State) :
    AddsResponses n s (raiseFault k n s) :=
  ⟨List.replicate n zeroWord, List.length_replicate, raiseFault_resps k n s⟩

theorem haltedCommand_addsResponses (op : Opcode) (s : State) :
    AddsResponses (frameWords s.cfg op) s (haltedCommand op s) :=
  respond_addsResponses List.length_replicate s

/-- A command that runs answers the words its opcode frames. -/
theorem effect_addsResponses {i : Instr} (h : effect i s = .next t) :
    AddsResponses (frameWords s.cfg i.opcode) s t := by
  cases i with
  | nop => cases h; exact addsResponses_zero rfl
  | push sample =>
    obtain ⟨ws, -, hpush, -⟩ | ⟨_, -, -, rfl⟩ | ⟨⟨⟩, -⟩ := effect_cases h
    · exact absurd rfl hpush
    · exact addsResponses_zero (by simp)
  | tick =>
    simp only [effect] at h
    split at h <;> cases h <;> exact addsResponses_zero rfl
  | rdSurface => cases h; exact respond_addsResponses (length_surfaceWords s) s
  | rdTbuf _ | rdPixel _ _ | rdStatus | rdConfig _ =>
    cases h; exact respond_addsResponses List.length_singleton s

/-- A decoded command adds the words its opcode frames, whether it faults, is halted or runs. -/
theorem exec_addsResponses {i : Instr} (h : exec i s = .next t) :
    AddsResponses (frameWords s.cfg i.opcode) s t := by
  rw [exec_eq_guarded] at h
  obtain ⟨k, -, rfl⟩ | ⟨-, -, -, rfl⟩ | ⟨-, -, heffect⟩ := guarded_cases h
  · exact raiseFault_addsResponses k _ s
  · exact haltedCommand_addsResponses _ s
  · exact effect_addsResponses heffect

/-- A word that decodes to no command adds the words that its opcode, if any, frames. -/
theorem rejectCommand_addsResponses {w : Command} {r : DecodeReject} (h : decode w = .error r) (s : State) :
    AddsResponses (Claims.responseCount s.cfg w) s (rejectCommand r s) := by
  rw [responseCount_eq_frameWords, ← decodedOpcode_decode, h]
  cases r with
  | unknownOpcode => exact raiseFault_addsResponses _ 0 s
  | reservedBits op =>
    rw [rejectCommand]
    split <;> exact raiseFault_addsResponses _ _ s

/-- Every command word adds as many words as its OPC frames. -/
theorem runWord_addsResponses {w : Command} (h : runWord w s = .next t) :
    AddsResponses (Claims.responseCount s.cfg w) s t := by
  unfold runWord at h
  split at h
  · next i hi =>
    rw [responseCount_eq_frameWords, ← decodedOpcode_decode, hi]
    exact exec_addsResponses h
  · next r hr =>
    cases h
    exact rejectCommand_addsResponses hr s

end AddsResponses

/-- A port with responses waiting delivers the oldest and keeps the rest (R106). -/
theorem deliverResponse_of_cons {p : Port} {s : State} {v : Word32} {rest : List Word32}
    (h : s.resps.get p = v :: rest) :
    deliverResponse p s = some (v, { s with resps := s.resps.set p rest }) := by
  simp [deliverResponse, h]

/-- Settles O11: every command word puts as many words as its OPC frames at the end of the issuing port's
stream alone, and delivery takes the oldest word of a stream. -/
theorem responseFramingDependsOnOpcodeAlone : Obligations.ResponseFramingDependsOnOpcodeAlone := by
  constructor
  · intro s t w h
    obtain ⟨ws, hlength, hresps⟩ := runWord_addsResponses h
    refine ⟨⟨ws, hlength, ?_⟩, fun p hp => ?_⟩
    · rw [hresps, PerPort.get_set_same]
    · rw [hresps, PerPort.get_set_other _ _ _ _ hp]
  · intro s p v rest h
    exact ⟨_, deliverResponse_of_cons h, PerPort.get_set_same _ _ _, rfl, rfl, rfl, rfl, rfl, rfl, rfl⟩

end Sys2Proof.Machine

/-! PROOFS. Pushes and the halted state: what a push does on a full Fifo, what each command answers in a
halted block, and the cursor after a run of commands (40_fifo.md R141 to R149). -/

namespace Sys2Proof.Machine

@[simp] theorem respond_nil (s : State) : respond [] s = s := by simp [respond]

/-- Responding leaves the block (00_scope.md R18). -/
theorem respond_sameBlock (ws : List Word32) (s : State) : s.sameBlock (respond ws s) :=
  ⟨rfl, rfl, rfl, rfl, rfl, rfl, rfl⟩

/-- Responding puts the words on the stream of the issuing port (R18). -/
theorem respond_answered (ws : List Word32) (s : State) : s.answered (respond ws s) ws where
  cmds := rfl
  resps p := by
    by_cases hp : p = s.port <;> simp [hp]
  rst := rfl
  port := rfl
  draws := rfl

/-- A state with the ports of `s` has answered nothing. -/
theorem answered_nil {s t : State} (hcmds : t.cmds = s.cmds) (hresps : t.resps = s.resps) (hrst : t.rst = s.rst)
    (hport : t.port = s.port) (hdraws : t.draws = s.draws) : s.answered t [] :=
  ⟨hcmds, fun p => by simp [hresps], hrst, hport, hdraws⟩

/-- The words a command without a fault answers in the halted state: the framed zeros, or for a command that
runs halted its own words (60_exceptions.md R273, 45_readout.md R246). -/
def haltedAnswer (s : State) : Instr → List Word32
  | .rdStatus => [statusWord s]
  | .rdConfig sel => [configWord s.cfg sel]
  | i => List.replicate (frameWords s.cfg i.opcode) zeroWord

/-- In the halted state a command without a fault does nothing but answer (60_exceptions.md R273). -/
theorem exec_of_halted_eq_respond {i : Instr} {s : State} (herr : s.err = true)
    (hwf : i.wellFormed s.port s.cfg = true) : exec i s = .next (respond (haltedAnswer s i) s) := by
  cases i with
  | nop => exact (exec_of_runs hwf (.inr rfl)).trans (congrArg _ (respond_nil s).symm)
  | rdStatus | rdConfig _ => exact exec_of_runs hwf (.inr rfl)
  | push _ | tick | rdTbuf _ | rdPixel _ _ | rdSurface => exact exec_of_halted hwf herr rfl

/-- Settles O13: the command answers its halted words and does nothing else. -/
theorem haltedCommandsHaveNoEffect : Obligations.HaltedCommandsHaveNoEffect := by
  intro s i herr hwf
  refine ⟨_, exec_of_halted_eq_respond herr hwf, respond_sameBlock _ s, ?_⟩
  have hanswered := respond_answered (haltedAnswer s i) s
  cases i <;> exact hanswered

/-- On port P of a running block a push is the fullness check and then the write (40_fifo.md R141, R145). -/
theorem exec_push_of_running {s : State} (sample : Word32) (hport : s.port = .producer) (herr : s.err = false) :
    exec (.push sample) s = writeSample sample (checkFullness s) :=
  exec_of_runs (by rw [hport]; rfl) (.inl herr)

/-- A push on a full Fifo transfers the block or drops it, and its sample goes in slot 0 (40_fifo.md R142 to
R145). -/
theorem exec_push_of_full {s : State} (sample : Word32) (hport : s.port = .producer) (herr : s.err = false)
    (hfull : s.idx.toNat = s.cfg.N) :
    exec (.push sample) s =
      .next (setIdx 1 (writeFifo (if s.ready then s else transferBlock s) 0 sample)) := by
  have hslot : (checkFullness s).idx.toNat < (checkFullness s).cfg.N := by
    simpa using checkFullness_idx_lt s hfull.le
  rw [exec_push_of_running sample hport herr, writeSample_next _ _ hslot, checkFullness_full s hfull]
  cases s.ready <;> rfl

/-- The word a transfer leaves at each index: the Fifo's words, zeros over them, and none beyond the space
(40_fifo.md R142). -/
theorem cellAt_transferBlock_tbuf (s : State) (j : Nat) :
    cellAt (transferBlock s).mem.tbuf j =
      if j < 2 * s.cfg.N then some (if j < s.cfg.N then readFifo s j else zeroWord) else none := by
  rw [transferBlock_mem, cellAt_fillCells]

/-- Settles O16: the push leaves the transferred block, whose words are those of `cellAt_transferBlock_tbuf`. -/
theorem pushOnFullTransfersBlock : Obligations.PushOnFullTransfersBlock := by
  intro s sample hport herr hfull hready
  have hpush := exec_push_of_full sample hport herr hfull
  rw [hready] at hpush
  have htbuf := cellAt_transferBlock_tbuf s
  refine ⟨_, hpush, rfl, rfl, fun j hj v hv => ?_, fun j hj hv => ?_, fun j hlo hhi => ?_, fun j hj => ?_,
    fun j => cellAt_cellWrite s.mem.fifo 0 j sample, rfl, rfl, rfl, rfl, rfl, answered_nil rfl rfl rfl rfl rfl⟩
  · exact (htbuf j).trans (by simp [show j < 2 * s.cfg.N by omega, hj, readFifo, hv])
  · exact (htbuf j).trans (by simp [show j < 2 * s.cfg.N by omega, hj, readFifo, hv])
  · exact (htbuf j).trans (by simp [hhi, hlo.not_gt])
  · exact (htbuf j).trans (by simp [hj.not_gt])

/-- Settles O17: with the flag set the push writes slot 0 and the cursor alone. -/
theorem pushOnFullDropsBlock : Obligations.PushOnFullDropsBlock := by
  intro s sample hport herr hfull hready
  have hpush := exec_push_of_full sample hport herr hfull
  rw [hready] at hpush
  exact ⟨_, hpush, rfl, hready, fun j => cellAt_cellWrite s.mem.fifo 0 j sample, rfl, rfl, rfl, rfl, rfl, rfl,
    answered_nil rfl rfl rfl rfl rfl⟩

/-- The cursor after `p` pushes from a cursor of 0 (40_fifo.md R146). -/
def cursorAfter (c : Config) (p : Nat) : Nat := if p = 0 then 0 else (p - 1) % c.N + 1

theorem cursorAfter_succ (c : Config) (p : Nat) : cursorAfter c (p + 1) = p % c.N + 1 := rfl

/-- The cursor lies in `[0, N]` (10_state.md R33). -/
theorem cursorAfter_le (c : Config) (p : Nat) : cursorAfter c p ≤ c.N := by
  cases p with
  | zero => exact Nat.zero_le _
  | succ p => exact Nat.mod_lt p (blockSize_pos c)

/-- One more push takes the cursor from `k` to `k mod N + 1`. -/
theorem cursorAfter_succ_eq_step (c : Config) (p : Nat) :
    cursorAfter c (p + 1) = cursorAfter c p % c.N + 1 := by
  cases p with
  | zero => rfl
  | succ p => rw [cursorAfter_succ, cursorAfter_succ, Nat.mod_add_mod]

/-- The fullness check takes a cursor of `N` to 0 and leaves every other (40_fifo.md R144). -/
theorem checkFullness_idx_toNat (s : State) (hidx : s.idx.toNat ≤ s.cfg.N) :
    (checkFullness s).idx.toNat = s.idx.toNat % s.cfg.N := by
  by_cases hfull : s.idx.toNat = s.cfg.N
  · rw [checkFullness_full s hfull, hfull, Nat.mod_self]
    cases s.ready <;> rfl
  · rw [checkFullness_not_full s hfull, Nat.mod_eq_of_lt (by omega)]

/-- `s` is a running block with the parameters `c` and the cursor at `k`. -/
structure RunsAt (c : Config) (k : Nat) (s : State) : Prop where
  cfg : s.cfg = c
  err : s.err = false
  idx : s.idx.toNat = k

/-- On port P of a running block a push advances the cursor by one, from 0 where it was `N` (40_fifo.md R144,
R145). -/
theorem exec_push_runsAt {c : Config} {k : Nat} {s : State} (sample : Word32) (hs : RunsAt c k s)
    (hport : s.port = .producer) (hk : k ≤ c.N) :
    ∃ t, exec (.push sample) s = .next t ∧ RunsAt c (k % c.N + 1) t := by
  obtain ⟨rfl, herr, rfl⟩ := hs
  have hslot : (checkFullness s).idx.toNat < (checkFullness s).cfg.N := by
    simpa using checkFullness_idx_lt s hk
  refine ⟨_, (exec_push_of_running sample hport herr).trans (writeSample_next _ _ hslot), ?_, ?_, ?_⟩
  · simp
  · simpa using herr
  · rw [setIdx_idx, idx_succ_toNat _ hslot, checkFullness_idx_toNat s hk]

/-- The effect of a command other than a push goes on. -/
theorem effect_next_of_not_push {i : Instr} (s : State) (hpush : i.opcode ≠ .push) :
    ∃ t, effect i s = .next t := by
  cases i with
  | push _ => exact absurd rfl hpush
  | tick => by_cases hready : isReady s = true <;> simp [effect, hready]
  | nop | rdTbuf _ | rdPixel _ _ | rdSurface | rdStatus | rdConfig _ => exact ⟨_, rfl⟩

/-- In a running block a tick or a read leaves the cursor (40_fifo.md R146). -/
theorem exec_runsAt_of_not_push {c : Config} {k : Nat} {i : Instr} {s : State} (hs : RunsAt c k s)
    (hwf : i.wellFormed s.port c = true) (hpush : i.opcode ≠ .push) :
    ∃ t, exec i s = .next t ∧ RunsAt c k t := by
  obtain ⟨rfl, herr, rfl⟩ := hs
  obtain ⟨t, heffect⟩ := effect_next_of_not_push s hpush
  refine ⟨t, (exec_of_runs hwf (.inl herr)).trans heffect, ?_⟩
  obtain ⟨ws, rfl, -, -⟩ | ⟨sample, rfl, -, -⟩ | ⟨-, -, rfl⟩ := effect_cases heffect
  · exact ⟨rfl, herr, rfl⟩
  · exact absurd rfl hpush
  · exact ⟨rfl, herr, rfl⟩

/-- The number of pushes in a run of commands. -/
def pushCount (cs : List (Port × Instr)) : Nat := cs.countP (fun e => e.2.opcode == .push)

theorem pushCount_cons (e : Port × Instr) (cs : List (Port × Instr)) :
    pushCount (e :: cs) = pushCount cs + pushCount [e] := by
  simp [pushCount, List.countP_cons]

/-- Push rights: a well-formed push is issued on port P (30_encoding.md R105). -/
theorem port_of_push_wellFormed {p : Port} {c : Config} {sample : Word32}
    (hwf : (Instr.push sample).wellFormed p c = true) : p = .producer := by
  cases p with
  | producer => rfl
  | consumer | reader => cases hwf

/-- One command without a fault takes the cursor from its value after `p` pushes to its value with the
command counted (40_fifo.md R146). -/
theorem exec_runsAt_cursorAfter {c : Config} {p : Nat} {port : Port} {i : Instr} {s : State}
    (hs : RunsAt c (cursorAfter c p) s) (hwf : i.wellFormed port c = true) :
    ∃ t, exec i (onPort port s) = .next t ∧ RunsAt c (cursorAfter c (p + pushCount [(port, i)])) t := by
  have hissued : RunsAt c (cursorAfter c p) (onPort port s) := ⟨hs.cfg, hs.err, hs.idx⟩
  cases i with
  | push sample =>
    have hadvance := exec_push_runsAt sample hissued (port_of_push_wellFormed hwf) (cursorAfter_le c p)
    rwa [← cursorAfter_succ_eq_step] at hadvance
  | nop | tick | rdTbuf _ | rdPixel _ _ | rdSurface | rdStatus | rdConfig _ =>
    exact exec_runsAt_of_not_push hissued hwf nofun

theorem issue_cons {port : Port} {i : Instr} {s t : State} (h : exec i (onPort port s) = .next t)
    (rest : List (Port × Instr)) : Claims.issue ((port, i) :: rest) s = Claims.issue rest t := by
  rw [Claims.issue, h]

/-- A run of commands without faults that begins after `p` pushes leaves the cursor at its value with the
run's pushes counted (40_fifo.md R146). -/
theorem issue_runsAt_cursorAfter {c : Config} (cs : List (Port × Instr)) {p : Nat} {s : State}
    (hs : RunsAt c (cursorAfter c p) s) (hwf : ∀ e ∈ cs, e.2.wellFormed e.1 c = true) :
    ∃ t, Claims.issue cs s = some t ∧ RunsAt c (cursorAfter c (p + pushCount cs)) t := by
  induction cs generalizing p s with
  | nil => exact ⟨s, rfl, hs⟩
  | cons e rest ih =>
    obtain ⟨hfirst, hrest⟩ := List.forall_mem_cons.1 hwf
    obtain ⟨u, hexec, hu⟩ := exec_runsAt_cursorAfter hs hfirst
    obtain ⟨t, hissue, ht⟩ := ih hu hrest
    refine ⟨t, (issue_cons hexec rest).trans hissue, ?_⟩
    rwa [pushCount_cons, Nat.add_comm (pushCount rest), ← Nat.add_assoc]

/-- Settles O20: the run begins after no push. -/
theorem cursorClosedForm : Obligations.CursorClosedForm := by
  intro s cs hidx herr hwf
  have hstart : RunsAt s.cfg (cursorAfter s.cfg 0) s := ⟨rfl, herr, by rw [hidx]; rfl⟩
  obtain ⟨t, hissue, ht⟩ := issue_runsAt_cursorAfter cs hstart hwf
  refine ⟨t, hissue, ht.err, ?_⟩
  rw [ht.idx, Nat.zero_add]
  rfl

end Sys2Proof.Machine

/-! PROOFS. Ticks on a written block: on finite words what a tick leaves is a function of the parameters and the
block, and under the stub it leaves the block (41_transform.md R161, R165). -/

namespace Sys2Proof.Machine

/-- A written entry of the Transform Buffer reads as its word, whatever the draw number (20_memory.md R71). -/
theorem readTbuf_of_written {s : State} {j : Nat} {v : Word32} (h : cellAt s.mem.tbuf j = some v) :
    readTbuf s j = v := by
  rw [readTbuf, h, Option.getD_some]

/-- The transform's input is the same in two states whose Transform Buffers read alike (41_transform.md R160). -/
theorem tbufWords_congr {s u : State} (hcfg : s.cfg = u.cfg)
    (hread : ∀ j, j < 2 * s.cfg.N → readTbuf s j = readTbuf u j) : tbufWords s = tbufWords u := by
  rw [tbufWords, tbufWords, ← hcfg]
  exact List.map_congr_left fun j hj => hread j (List.mem_range.1 hj)

/-- Where each entry reads a finite word the transform's whole input is finite. -/
theorem tbufWords_all_finite {s : State} (h : ∀ j, j < 2 * s.cfg.N → floatIsFinite (readTbuf s j) = true) :
    (tbufWords s).all floatIsFinite = true := by
  rw [tbufWords, List.all_map, List.all_eq_true]
  exact fun j hj => h j (List.mem_range.1 hj)

/-- Word `j` of the transform's input is entry `j` of the Transform Buffer (41_transform.md R160). -/
theorem blockWord_tbufWords (s : State) {j : Nat} (hj : j < 2 * s.cfg.N) :
    blockWord (tbufWords s) j = readTbuf s j := by
  simp [blockWord, tbufWords, hj]

/-- A frame depends on the first `N` words of its spectrum alone (42_render.md R190). -/
theorem framePixel_congr {c : Config} {f g : Nat → Word32} (h : ∀ i, i < c.N → f i = g i) (px py : Nat) :
    framePixel c f px py = framePixel c g px py := by
  have hany : (List.range c.N).any (fun i => binColours c i (f i) px py) =
      (List.range c.N).any (fun i => binColours c i (g i) px py) := by
    rw [Bool.eq_iff_iff, List.any_eq_true, List.any_eq_true]
    exact exists_congr fun i => and_congr_right fun hi => by rw [h i (List.mem_range.1 hi)]
  rw [framePixel, framePixel, hany]

/-- On a finite input the Transform Buffer a tick leaves holds the function `T` of that input (R161(a)). -/
theorem tickReady_tbuf_of_finite {s : State} (hinput : (tbufWords s).all floatIsFinite = true) :
    (tickReady s).mem.tbuf = fillCells (2 * s.cfg.N) (finiteTransformWord s.cfg (tbufWords s)) := by
  rw [tickReady_tbuf, funext (transformWord_of_finite hinput s.draws)]

/-- On a finite input the surface a tick leaves is the frame of the function `T` of that input (R161(a), 44_tick.md
R222). -/
theorem tickReady_surf_of_finite {s : State} (hinput : (tbufWords s).all floatIsFinite = true) :
    (tickReady s).mem.surf = fillCells (s.cfg.W * s.cfg.H) (fun j =>
      framePixel s.cfg (finiteTransformWord s.cfg (tbufWords s)) (j % s.cfg.W) (j / s.cfg.W)) := by
  have hspectrum : ∀ i, i < s.cfg.N →
      readTbuf (transformInPlace s) i = finiteTransformWord s.cfg (tbufWords s) i := fun i hi => by
    rw [readTbuf_transformInPlace s i (by omega), transformWord_of_finite hinput]
  rw [tickReady_surf]
  exact congrArg _ (funext fun j => framePixel_congr hspectrum _ _)

/-- Settles O45: both ticks have the same finite input, and the parameters and the input give all that each
leaves in the Transform Buffer and on the surface. -/
theorem finiteTickIsAFunctionOfItsBlock : Obligations.FiniteTickIsAFunctionOfItsBlock := by
  intro s u hsport huport hserr huerr hsready huready hcfg hblock
  have hwords : tbufWords s = tbufWords u := tbufWords_congr hcfg fun j hj => by
    obtain ⟨v, hs, hu, -⟩ := hblock j hj
    rw [readTbuf_of_written hs, readTbuf_of_written hu]
  have hsfinite : (tbufWords s).all floatIsFinite = true := tbufWords_all_finite fun j hj => by
    obtain ⟨v, hs, -, hv⟩ := hblock j hj
    rwa [readTbuf_of_written hs]
  have hufinite : (tbufWords u).all floatIsFinite = true := hwords ▸ hsfinite
  refine ⟨tickReady s, tickReady u, exec_tick_of_ready hsport hserr hsready,
    exec_tick_of_ready huport huerr huready, ?_, ?_⟩
  · rw [tickReady_tbuf_of_finite hsfinite, tickReady_tbuf_of_finite hufinite, hcfg, hwords]
  · rw [tickReady_surf_of_finite hsfinite, tickReady_surf_of_finite hufinite, hcfg, hwords]

/-- Settles O49: the tick takes the ready path, and each output word of the stub is the input word, finite or
not. -/
theorem stubTickLeavesTheBlock : Obligations.StubTickLeavesTheBlock := by
  intro s hport herr hready hstub
  refine ⟨tickReady s, exec_tick_of_ready hport herr hready, rfl, rfl, fun j hj v hv => ?_⟩
  calc cellAt (tickReady s).mem.tbuf j
    _ = some (transformWord s.cfg s.draws (tbufWords s) j) := cellAt_tickReady_tbuf s hj
    _ = some (readTbuf s j) := by rw [transformWord_of_stub hstub, blockWord_tbufWords s hj]
    _ = some v := by rw [readTbuf_of_written hv]

end Sys2Proof.Machine

/-! PROOFS. Rendering: the left edges of the bins, the default `MAGMAP` as the floor of the binary32 value, and
the frame pixel by pixel (42_render.md R182 to R190). -/

namespace Sys2Proof.Machine

theorem divisor_pos (c : Config) : 0 < c.B := Nat.succ_pos _

/-- Bin 0 starts at column 0 (R182). -/
theorem xPos_zero (c : Config) : xPos c 0 = 0 := by cases hmode : c.xMode <;> simp [xPos, hmode]

/-- The left edges do not decrease (R182). -/
theorem xPos_mono (c : Config) : Monotone (xPos c) := by
  intro i j hij
  cases hmode : c.xMode with
  | realFloor => simpa [xPos, hmode] using Nat.div_le_div_right (Nat.mul_le_mul_right c.W hij)
  | intDiv => simpa [xPos, hmode] using Nat.mul_le_mul_right c.W (Nat.div_le_div_right hij)

/-- Exactly the bins from the divisor on start past the right edge, in both modes (R187). -/
theorem width_le_xPos_iff (c : Config) (i : Nat) : c.W ≤ xPos c i ↔ c.B ≤ i := by
  cases hmode : c.xMode with
  | realFloor =>
    calc c.W ≤ xPos c i
      _ ↔ c.W ≤ i * c.W / c.B := by simp [xPos, hmode]
      _ ↔ c.B * c.W ≤ i * c.W := by rw [Nat.le_div_iff_mul_le (divisor_pos c), Nat.mul_comm]
      _ ↔ c.B ≤ i := Nat.mul_le_mul_right_iff (width_pos c)
  | intDiv =>
    calc c.W ≤ xPos c i
      _ ↔ c.W ≤ i / c.B * c.W := by simp [xPos, hmode]
      _ ↔ 0 < i / c.B := le_mul_iff_one_le_left (width_pos c)
      _ ↔ c.B ≤ i := Nat.div_pos_iff.trans (and_iff_right (divisor_pos c))

/-- A bin off the screen colours nothing (R187). -/
theorem binColours_of_offScreen {c : Config} {i : Nat} (h : c.B ≤ i) (m : Word32) (px py : Nat) :
    binColours c i m px py = false := by
  refine Bool.eq_false_iff.2 fun hcolours => ?_
  obtain ⟨honScreen, -⟩ := (binColours_iff c i m px py).1 hcolours
  exact ((width_le_xPos_iff c i).2 h).not_gt honScreen

/-- Settles O29: each mode's edge is its own quotient, and the edges past the screen are `width_le_xPos_iff`. -/
theorem leftEdgesAndOffScreenBins : Obligations.LeftEdgesAndOffScreenBins := by
  intro c i
  refine ⟨fun hmode => ?_, fun hmode => ?_, xPos_zero c, xPos_mono c i.le_succ, width_le_xPos_iff c i,
    binColours_of_offScreen⟩
  · have hedge : xPos c i = i * c.W / c.B := by simp [xPos, hmode]
    rw [hedge]
    exact ⟨Nat.div_mul_le_self _ _, (Nat.div_lt_iff_lt_mul (divisor_pos c)).1 (Nat.lt_succ_self _)⟩
  · have hedge : xPos c i = i / c.B * c.W := by simp [xPos, hmode]
    exact ⟨hedge, fun hi => by rw [hedge, Nat.div_eq_of_lt hi, Nat.zero_mul]⟩

/-- The exponent field is the word's number from bit 23, eight bits of it (00_scope.md R19). -/
theorem floatExponent_eq (m : Word32) : floatExponent m = m.toNat / 2 ^ 23 % 2 ^ 8 := by
  rw [floatExponent, BitVec.extractLsb'_toNat, Nat.shiftRight_eq_div_pow]

/-- The fraction field is the low 23 bits of the word's number (00_scope.md R19). -/
theorem floatFraction_eq (m : Word32) : floatFraction m = m.toNat % 2 ^ 23 := by
  rw [floatFraction, BitVec.extractLsb'_toNat, Nat.shiftRight_zero]

/-- The sign bit is the word's number from bit 31 (00_scope.md R19). -/
theorem floatSign_eq_false_iff (m : Word32) : floatSign m = false ↔ m.toNat / 2 ^ 31 = 0 := by
  have hlt := m.isLt
  rw [floatSign, beq_eq_false_iff_ne, Ne, ← BitVec.toNat_inj, BitVec.extractLsb'_toNat,
    Nat.shiftRight_eq_div_pow]
  change ¬ m.toNat / 2 ^ 31 % 2 ^ 1 = 1 ↔ _
  omega

/-- The absolute value of a word by its exponent and fraction, subnormal or normal (00_scope.md R19). -/
theorem floatUnits_div (m : Word32) :
    (floatUnits m : ℚ) / 2 ^ 149 =
      if floatExponent m = 0 then (floatFraction m : ℚ) * 2 ^ (-149 : ℤ)
      else ((2 ^ 23 + floatFraction m : ℕ) : ℚ) * 2 ^ ((floatExponent m : ℤ) - 150) := by
  rw [floatUnits]
  cases floatExponent m with
  | zero => simp [div_eq_mul_inv, zpow_neg]
  | succ k =>
    have hpow : (2 : ℚ) ^ (((k + 1 : ℕ) : ℤ) - 150) = 2 ^ k / 2 ^ 149 := by
      rw [show ((k + 1 : ℕ) : ℤ) - 150 = (k : ℤ) - (149 : ℕ) by push_cast; ring, zpow_sub₀ two_ne_zero,
        zpow_natCast, zpow_natCast]
    rw [if_neg k.succ_ne_zero, if_neg k.succ_ne_zero, hpow, Nat.add_sub_cancel, Nat.cast_mul, Nat.cast_pow,
      mul_div_assoc, Nat.cast_ofNat]

/-- The model's integer reading of a word is its value in units of `2^-149`. -/
theorem binary32Value_eq (m : Word32) : Claims.binary32Value m = (floatValue m : ℚ) / 2 ^ 149 := by
  have hvalue : Claims.binary32Value m =
      (if m.toNat / 2 ^ 31 = 0 then 1 else -1) * ((floatUnits m : ℚ) / 2 ^ 149) := by
    rw [floatUnits_div, floatExponent_eq, floatFraction_eq]
    rfl
  rw [hvalue, floatValue]
  cases hsign : floatSign m with
  | false => rw [if_pos ((floatSign_eq_false_iff m).1 hsign), one_mul]; rfl
  | true =>
    have hbit : m.toNat / 2 ^ 31 ≠ 0 := mt (floatSign_eq_false_iff m).2 (by simp [hsign])
    rw [if_neg hbit, if_pos rfl, neg_one_mul, Int.cast_neg, neg_div]
    rfl

/-- The floor of a word's value is a division of the integer reading. -/
theorem floor_binary32Value (m : Word32) : ⌊Claims.binary32Value m⌋ = floatValue m / 2 ^ 149 := by
  rw [binary32Value_eq]
  exact_mod_cast Rat.floor_intCast_div_natCast (floatValue m) (2 ^ 149)

/-- The default `MAGMAP` of a number is its floor held to `[0, W]` (R183). -/
theorem truncateWidth_of_number {m : Word32} (hnumber : floatIsNaN m = false) (w : Nat) :
    (truncateWidth w m : ℤ) = max 0 (min ⌊Claims.binary32Value m⌋ w) := by
  rw [floor_binary32Value, truncateWidth, floatValue, hnumber]
  cases floatSign m with
  | true =>
    have hnonpos : -(floatUnits m : ℤ) / 2 ^ 149 ≤ 0 := by omega
    exact (max_eq_left (min_le_of_left_le hnonpos)).symm
  | false =>
    simp only [Bool.false_or, decide_eq_true_eq, Bool.false_eq_true, if_false]
    split_ifs <;> omega

theorem truncateWidth_of_nan {m : Word32} (hnan : floatIsNaN m = true) (w : Nat) : truncateWidth w m = 0 := by
  rw [truncateWidth, if_pos hnan]

theorem truncateWidth_le (w : Nat) (m : Word32) : truncateWidth w m ≤ w := by
  cases hnan : floatIsNaN m with
  | true => rw [truncateWidth_of_nan hnan]; exact Nat.zero_le w
  | false => have hwidth := truncateWidth_of_number hnan w; omega

/-- `MAGMAP` lies in `[0, W]` under every policy (00_scope.md R12). -/
theorem magMap_le_width (c : Config) (m : Word32) : magMap c m ≤ c.W := by
  rw [magMap]
  split
  · exact truncateWidth_le c.W m
  · exact Nat.min_le_right _ _

/-- A word is NaN exactly where its exponent field is all ones and its fraction is not 0. -/
theorem floatIsNaN_iff (m : Word32) :
    floatIsNaN m = true ↔ m.toNat / 2 ^ 23 % 2 ^ 8 = 255 ∧ m.toNat % 2 ^ 23 ≠ 0 := by
  rw [← floatExponent_eq, ← floatFraction_eq, floatIsNaN, Bool.and_eq_true, beq_iff_eq, bne_iff_ne]

theorem binary32Value_infinity : Claims.binary32Value 0x7F800000 = 2 ^ 128 := by
  rw [binary32Value_eq, show floatValue 0x7F800000 = 2 ^ 128 * 2 ^ 149 by decide]
  norm_num

theorem binary32Value_negative_infinity : Claims.binary32Value 0xFF800000 = -2 ^ 128 := by
  rw [binary32Value_eq, show floatValue 0xFF800000 = -(2 ^ 128 * 2 ^ 149) by decide]
  norm_num

section DefaultMagMap

variable {c : Config} {m : Word32} (hpolicy : c.magPolicy = .truncate)
include hpolicy

theorem magMap_eq_truncateWidth : magMap c m = truncateWidth c.W m := by rw [magMap, hpolicy]

variable (hnumber : floatIsNaN m = false)
include hnumber

/-- The default `MAGMAP` gives no width to a value up to 0 (R183). -/
theorem magMap_of_nonpos (hvalue : Claims.binary32Value m ≤ 0) : magMap c m = 0 := by
  have hfloor := Int.floor_nonpos hvalue
  have hwidth := truncateWidth_of_number hnumber c.W
  rw [magMap_eq_truncateWidth hpolicy]
  omega

/-- The default `MAGMAP` caps a value from `W` on (R183). -/
theorem magMap_of_width_le (hvalue : (c.W : ℚ) ≤ Claims.binary32Value m) : magMap c m = c.W := by
  have hfloor : (c.W : ℤ) ≤ ⌊Claims.binary32Value m⌋ := Int.le_floor.2 (by exact_mod_cast hvalue)
  have hwidth := truncateWidth_of_number hnumber c.W
  rw [magMap_eq_truncateWidth hpolicy]
  omega

/-- The default `MAGMAP` truncates a value between 0 and `W` (R183). -/
theorem magMap_of_between (hpos : 0 < Claims.binary32Value m) (hlt : Claims.binary32Value m < c.W) :
    (magMap c m : ℤ) = ⌊Claims.binary32Value m⌋ := by
  have hnonneg : 0 ≤ ⌊Claims.binary32Value m⌋ := Int.floor_nonneg.2 hpos.le
  have hfloor : ⌊Claims.binary32Value m⌋ < (c.W : ℤ) := Int.floor_lt.2 (by exact_mod_cast hlt)
  rw [magMap_eq_truncateWidth hpolicy, truncateWidth_of_number hnumber]
  omega

end DefaultMagMap

/-- The surface's width is far below the value that stands for an infinity (00_scope.md R8). -/
theorem width_le (c : Config) : c.W ≤ 65536 := c.widthM1.isLt

/-- Settles O28: the words that are no NaN, the infinities among them, are compared with 0 and `W` by value. -/
theorem magMapCountsWholePixels : Obligations.MagMapCountsWholePixels := by
  intro c m
  refine ⟨magMap_le_width c m, fun hpolicy => ⟨fun hexponent hfraction => ?_, ?_, ?_, fun hfinite => ?_⟩⟩
  · rw [magMap_eq_truncateWidth hpolicy, truncateWidth_of_nan ((floatIsNaN_iff m).2 ⟨hexponent, hfraction⟩)]
  · rintro rfl
    have hwidth : (c.W : ℚ) ≤ 65536 := by exact_mod_cast width_le c
    exact magMap_of_width_le hpolicy (by decide) (hwidth.trans (by norm_num [binary32Value_infinity]))
  · rintro rfl
    exact magMap_of_nonpos hpolicy (by decide) (by norm_num [binary32Value_negative_infinity])
  · have hnumber : floatIsNaN m = false :=
      Bool.eq_false_iff.2 fun hnan => hfinite ((floatIsNaN_iff m).1 hnan).1
    exact ⟨magMap_of_nonpos hpolicy hnumber, magMap_of_width_le hpolicy hnumber,
      magMap_of_between hpolicy hnumber⟩

/-- The pixel a tick leaves is the frame's, of the transformed spectrum (44_tick.md R222). -/
theorem cellAt_tickReady_surf (s : State) {px py : Nat} (hpx : px < s.cfg.W) (hpy : py < s.cfg.H) :
    cellAt (tickReady s).mem.surf (pixelIndex s.cfg px py) =
      some (framePixel s.cfg (Claims.spectrum s) px py) := by
  have hspectrum (i : Nat) (hi : i < s.cfg.N) : readTbuf (transformInPlace s) i = Claims.spectrum s i :=
    readTbuf_transformInPlace s i (by omega)
  rw [tickReady_surf, cellAt_fillCells, if_pos (pixelIndex_lt s.cfg hpx hpy), pixelIndex_mod s.cfg py hpx,
    pixelIndex_div s.cfg py hpx, framePixel_congr hspectrum]

/-- On the image a bin colours the outline of its clamped rectangle (R184, R185). -/
theorem binColours_iff_outline {c : Config} {py : Nat} (hpy : py < c.H) (i : Nat) (m : Word32) (px : Nat) :
    binColours c i m px py = true ↔
      xPos c i < c.W ∧ ∃ wi, wi = binWidth c i m ∧ 1 ≤ wi ∧ xPos c i ≤ px ∧ px ≤ xPos c i + wi - 1 ∧
        (py = 0 ∨ py = c.H - 1 ∨ px = xPos c i ∨ px = xPos c i + wi - 1) := by
  simp only [binColours_iff, exists_eq_left, hpy, true_and]

/-- Settles O24: the tick takes the ready path, each pixel it leaves is the closed form's, and a bin colours
exactly its outline. -/
theorem tickPaintsClosedFormFrame : Obligations.TickPaintsClosedFormFrame := by
  intro s hport herr hready
  refine ⟨tickReady s, exec_tick_of_ready hport herr hready, fun px py hpx hpy => ?_⟩
  have hcell := cellAt_tickReady_surf s hpx hpy
  obtain ⟨hred, hblack⟩ := framePixel_eq s.cfg (Claims.spectrum s) px py
  simp only [binColours_iff_outline hpy] at hred hblack
  exact ⟨fun h => hcell.trans (congrArg some (hred h)), fun h => hcell.trans (congrArg some (hblack h))⟩

/-- Settles O26: each pixel of the frame depends on the first `N` words alone. -/
theorem scratchIsNeverRendered : Obligations.ScratchIsNeverRendered := by
  intro s u hcfg hread
  have hframe : framePixel s.cfg (readTbuf s) = framePixel s.cfg (readTbuf u) :=
    funext₂ (framePixel_congr hread)
  rw [renderFrame_mem, renderFrame_mem, hframe, hcfg]

end Sys2Proof.Machine

/-! PROOFS. The Readiness Gate: the transfer of a push sets the flag, the ready path of a tick clears it, and
nothing but these and a reset changes it (43_gate.md R212). -/

namespace Sys2Proof.Machine

/-- The fullness check changes the flag only by a transfer, which finds it clear and sets it (40_fifo.md R142,
R143). -/
theorem checkFullness_ready_change {s : State} (h : (checkFullness s).ready ≠ s.ready) :
    s.idx.toNat = s.cfg.N ∧ s.ready = false ∧ (checkFullness s).ready = true := by
  by_cases hfull : s.idx.toNat = s.cfg.N
  · cases hready : s.ready with
    | true => exact absurd (by rw [checkFullness_of_ready hready, setIdx_ready]) h
    | false => simp [checkFullness_full s hfull, hready, hfull]
  · exact absurd (by rw [checkFullness_not_full s hfull]) h

/-- An effect that changes the flag is a push's transfer, which sets it, or a tick's ready path, which clears it
(R212). -/
theorem effect_ready_change {i : Instr} {s t : State} (h : effect i s = .next t) (hchange : t.ready ≠ s.ready) :
    (∃ sample, i = .push sample ∧ s.idx.toNat = s.cfg.N ∧ s.ready = false ∧ t.ready = true) ∨
    (i = .tick ∧ s.ready = true ∧ t.ready = false) := by
  obtain ⟨ws, rfl, -, -⟩ | ⟨sample, rfl, -, rfl⟩ | ⟨rfl, hready, rfl⟩ := effect_cases h
  · exact absurd rfl hchange
  · exact .inl ⟨sample, rfl, checkFullness_ready_change hchange⟩
  · exact .inr ⟨rfl, hready, rfl⟩

/-- A command word that changes the flag is a well-formed command that runs: a fault and a halted command leave
the flag (60_exceptions.md R272, R273). -/
theorem runWord_ready_change {w : Command} {s t : State} (h : runWord w s = .next t)
    (hchange : t.ready ≠ s.ready) :
    ∃ i, decode w = .ok i ∧ i.wellFormed s.port s.cfg = true ∧ (s.err = false ∨ runsHalted i.opcode = true) ∧
      effect i s = .next t := by
  obtain ⟨k, n, rfl⟩ | ⟨i, -, -, -, -, rfl⟩ | hruns := runWord_cases h
  · exact absurd (raiseFault_ready k n s) hchange
  · exact absurd rfl hchange
  · exact hruns

/-- Tick rights: a well-formed tick is issued on port C (30_encoding.md R105). -/
theorem port_of_tick_wellFormed {p : Port} {c : Config} (hwf : Instr.tick.wellFormed p c = true) :
    p = .consumer := by
  cases p with
  | consumer => rfl
  | producer | reader => cases hwf

/-- Settles O37: a step that changes the flag runs a command word that does, so a push that transfers or a tick
that takes the ready path, each on the one port that has the right, and neither runs in a halted block. -/
theorem readyChangesOnlyByTransferTickReset : Obligations.ReadyChangesOnlyByTransferTickReset := by
  constructor
  · intro s t hrst h
    rw [step_of_reset hrst] at h
    cases h
    rfl
  · intro s t hrst h hchange
    obtain ⟨hrst', -⟩ | ⟨-, -, rfl⟩ | ⟨p, w, u, -, hserved, holdest, hrun, rfl⟩ := step_cases h
    · rw [hrst] at hrst'; cases hrst'
    · exact absurd rfl hchange
    · obtain ⟨i, hdecode, hwf, hruns, heffect⟩ := runWord_ready_change hrun hchange
      refine ⟨p, w, i, hserved, holdest, hdecode, ?_⟩
      obtain ⟨sample, rfl, hset⟩ | ⟨rfl, hclear⟩ := effect_ready_change heffect hchange
      · exact ⟨hruns.resolve_right nofun, .inl ⟨rfl, port_of_push_wellFormed hwf, hset⟩⟩
      · exact ⟨hruns.resolve_right nofun, .inr ⟨rfl, port_of_tick_wellFormed hwf, hclear⟩⟩

end Sys2Proof.Machine

/-! PROOFS. `TICK` at the ports and on the surface: what it does on a clear flag, that it alone paints, and what
port C accepts until it has executed (44_tick.md R221 to R224, 70_reset_and_hazards.md R307). -/

namespace Sys2Proof.Machine

/-- Settles O22: a running tick finds the flag clear, and a halted one answers no words. -/
theorem tickNotReadyChangesNothing : Obligations.TickNotReadyChangesNothing := by
  intro s hport hready
  have hwf : Instr.tick.wellFormed s.port s.cfg = true := by rw [hport]; rfl
  cases herr : s.err with
  | false => exact (exec_of_runs hwf (.inl herr)).trans (if_neg (by simp [isReady, hready]))
  | true => exact (exec_of_halted_eq_respond herr hwf).trans (congrArg _ (respond_nil s))

/-- An effect that changes the surface is a tick's ready path (R223). -/
theorem effect_surf_change {i : Instr} {s t : State} (h : effect i s = .next t)
    (hchange : t.mem.surf ≠ s.mem.surf) : i = .tick ∧ s.ready = true := by
  obtain ⟨ws, rfl, -, -⟩ | ⟨sample, -, -, rfl⟩ | ⟨htick, hready, -⟩ := effect_cases h
  · exact absurd rfl hchange
  · exact absurd (checkFullness_surf s) hchange
  · exact ⟨htick, hready⟩

/-- A command word that changes the surface is a tick of port C that runs on a set flag: a fault and a halted
command leave storage (R223, 60_exceptions.md R272, R273). -/
theorem runWord_surf_change {w : Command} {s t : State} (h : runWord w s = .next t)
    (hchange : t.mem.surf ≠ s.mem.surf) :
    decode w = .ok .tick ∧ s.port = .consumer ∧ s.ready = true ∧ s.err = false := by
  obtain ⟨k, n, rfl⟩ | ⟨i, -, -, -, -, rfl⟩ | ⟨i, hdecode, hwf, hruns, heffect⟩ := runWord_cases h
  · exact absurd (by rw [raiseFault_mem]) hchange
  · exact absurd rfl hchange
  · obtain ⟨rfl, hready⟩ := effect_surf_change heffect hchange
    exact ⟨hdecode, port_of_tick_wellFormed hwf, hready, hruns.resolve_right nofun⟩

/-- Settles O38: a step that changes the surface runs a command word that does, on the port it was taken from. -/
theorem onlyTickWritesTheSurface : Obligations.OnlyTickWritesTheSurface := by
  intro s t hrst h hchange
  obtain ⟨hrst', -⟩ | ⟨-, -, rfl⟩ | ⟨p, w, u, -, hserved, holdest, hrun, rfl⟩ := step_cases h
  · rw [hrst] at hrst'; cases hrst'
  · exact absurd rfl hchange
  · obtain ⟨hdecode, rfl, hready, herr⟩ := runWord_surf_change hrun hchange
    exact ⟨w, hserved, holdest, hdecode, hready, herr⟩

/-- A running block withholds acceptance on port C while an implementation is at a tick, whatever it would like
(R224). -/
theorem withholds_consumer_of_tick {a : Activity} {s : State} (stall : Bool) (herr : s.err = false)
    (htick : a.tickCycles ≠ none) : withholds a stall .consumer s = true := by
  simp [withholds, mustWithhold, herr, Option.isSome_iff_ne_none.2 htick]

/-- With no tick in progress nothing is withheld on port C, whatever the implementation would like (R307). -/
theorem withholds_consumer_of_no_tick {a : Activity} (stall : Bool) (s : State) (htick : a.tickCycles = none) :
    withholds a stall .consumer s = false := by
  simp [withholds, mustWithhold, mayWithhold, htick]

/-- An offer on a closed port changes nothing. -/
theorem offerCommand_of_closed {p : Port} {s : State} (a : Activity) (stall : Bool) (w : Command)
    (h : portOpen p s = false) : offerCommand a stall p w s = s := by
  rw [offerCommand, acceptCommand_of_closed w h, ite_self]

/-- The withholding that port C is allowed lasts below `TICK_MAX_CYCLES` (R307). -/
theorem mayWithhold_consumer_iff (c : Config) (a : Activity) :
    mayWithhold c .consumer a = true ↔ ∃ k, a.tickCycles = some k ∧ k < c.tickMaxCycles := by
  cases hcycles : a.tickCycles <;> simp [mayWithhold, hcycles]

/-- Settles O47: a tick in progress is withheld behind and an accepted one closes the port; with neither, or in a
halted block, the port is open and withholds nothing. -/
theorem portCWaitsForTheTick : Obligations.PortCWaitsForTheTick := by
  refine ⟨fun s a stall w herr hbusy => ?_, fun s a stall w hrst hfree => ?_, mayWithhold_consumer_iff⟩
  · obtain htick | ⟨v, hv, hdecode⟩ := hbusy
    · exact if_pos (withholds_consumer_of_tick stall herr htick)
    · refine offerCommand_of_closed a stall w (Bool.eq_false_iff.2 fun hopen => ?_)
      obtain ⟨-, hhalted | hnone⟩ := (portOpen_consumer_iff s).1 hopen
      · rw [herr] at hhalted; cases hhalted
      · exact hnone v hv hdecode
  · have hwithhold : withholds a stall .consumer s = false :=
      hfree.elim (withholds_of_halted a stall .consumer) fun h => withholds_consumer_of_no_tick stall s h.1
    have hopen : portOpen .consumer s = true := (portOpen_consumer_iff s).2 ⟨hrst, hfree.imp_right And.right⟩
    rw [offerCommand_of_not_withheld w hwithhold hopen]
    exact ⟨PerPort.get_set_same s.cmds .consumer _, ⟨rfl, rfl, rfl, rfl, rfl, rfl, rfl⟩,
      fun p hp => PerPort.get_set_other s.cmds .consumer p _ hp, rfl⟩

/-- A command's effect leaves the queues and the fault bit. -/
theorem effect_cmds_err {i : Instr} {s t : State} (h : effect i s = .next t) :
    t.cmds = s.cmds ∧ t.err = s.err := by
  obtain ⟨ws, rfl, -, -⟩ | ⟨sample, -, -, rfl⟩ | ⟨-, -, rfl⟩ := effect_cases h
  · exact ⟨rfl, rfl⟩
  · simp
  · exact ⟨rfl, rfl⟩

/-- A command word leaves the queues, and the fault bit is sticky (10_state.md R39). -/
theorem runWord_cmds_err {w : Command} {s t : State} (h : runWord w s = .next t) :
    t.cmds = s.cmds ∧ (t.err = false → s.err = false) := by
  obtain ⟨k, n, rfl⟩ | ⟨i, -, -, -, -, rfl⟩ | ⟨i, -, -, -, heffect⟩ := runWord_cases h
  · simp
  · exact ⟨rfl, id⟩
  · obtain ⟨hcmds, herr⟩ := effect_cmds_err heffect
    exact ⟨hcmds, herr ▸ id⟩

/-- No command comes to wait behind a tick where port C keeps an end of its queue and no halted block comes to
run. -/
theorem tickIsLast_of_suffix {s t : State} (herr : t.err = false → s.err = false)
    (hsuffix : t.cmds.get .consumer <:+ s.cmds.get .consumer) (h : s.tickIsLast) : t.tickIsLast := by
  intro hrunning w hw
  rw [List.suffix_iff_eq_drop.1 hsuffix, List.dropLast_drop_eq_drop_dropLast] at hw
  exact h (herr hrunning) w (List.mem_of_mem_drop hw)

/-- A block with nothing waiting on port C has nothing waiting behind a tick. -/
theorem tickIsLast_of_empty {s : State} (h : s.cmds.get .consumer = []) : s.tickIsLast := by
  intro _ w hw
  simp [h] at hw

/-- An accepted command waits behind no tick: port C of a running block takes it only with none accepted (R224). -/
theorem offerCommand_keeps_tickIsLast {s : State} (a : Activity) (stall : Bool) (p : Port) (w : Command)
    (h : s.tickIsLast) : (offerCommand a stall p w s).tickIsLast := by
  obtain heq | ⟨hopen, -, heq⟩ := offerCommand_cases a stall p w s
  · rwa [heq]
  · rw [heq]
    cases p with
    | producer | reader => exact h
    | consumer =>
      intro herr v hv
      obtain ⟨-, hhalted | hnone⟩ := (portOpen_consumer_iff s).1 hopen
      · rw [show s.err = false from herr] at hhalted; cases hhalted
      · rw [PerPort.get_set_same, List.dropLast_concat] at hv
        exact hnone v hv

/-- Delivering a response leaves the queues and the fault bit. -/
theorem deliverResponse_keeps_tickIsLast {s t : State} {p : Port} {v : Word32}
    (hdeliver : deliverResponse p s = some (v, t)) (h : s.tickIsLast) : t.tickIsLast := by
  cases hresps : s.resps.get p with
  | nil => simp [deliverResponse, hresps] at hdeliver
  | cons _ rest =>
    rw [deliverResponse_of_cons hresps] at hdeliver
    cases hdeliver
    exact h

/-- Taking a port's oldest command leaves an end of every queue. -/
theorem takeCommand_cmds_suffix (s : State) (p r : Port) : (takeCommand s p).cmds.get r <:+ s.cmds.get r := by
  rw [takeCommand_cmds, PerPort.get_set]
  split
  · next heq => subst heq; exact List.drop_suffix 1 _
  · exact List.suffix_refl _

/-- A step takes at most one command off port C and starts no halted block, but for a reset, which empties the
queues (R224). -/
theorem step_keeps_tickIsLast {s t : State} (hstep : step s = .next t) (h : s.tickIsLast) : t.tickIsLast := by
  obtain ⟨-, rfl⟩ | ⟨-, -, rfl⟩ | ⟨p, w, u, -, -, -, hrun, rfl⟩ := step_cases hstep
  · exact tickIsLast_of_empty rfl
  · exact h
  · obtain ⟨hcmds, herr⟩ := runWord_cmds_err hrun
    have hsuffix : u.cmds.get .consumer <:+ s.cmds.get .consumer := hcmds ▸ takeCommand_cmds_suffix s p .consumer
    exact tickIsLast_of_suffix (s := s) herr hsuffix h

/-- Settles O48: an offer is accepted behind no tick, and everything else only takes commands off port C. -/
theorem nothingWaitsBehindATick : Obligations.NothingWaitsBehindATick :=
  ⟨tickIsLast_of_empty rfl, fun _ a stall p w => offerCommand_keeps_tickIsLast a stall p w,
    fun _ _ _ _ h hdeliver => deliverResponse_keeps_tickIsLast hdeliver h, fun _ h => h,
    fun _ _ h hstep => step_keeps_tickIsLast hstep h⟩

end Sys2Proof.Machine

/-! PROOFS. Faults and the halted state: the check that fails first for a command word, what its fault does, and the
free ports of a halted block (30_encoding.md R107; 60_exceptions.md R272 to R274). -/

namespace Sys2Proof.Machine

/-- The value of RSV is the word's number from bit 32, without OPC (R101). -/
theorem rsvField_toNat (w : Command) : (rsvField w).toNat = w.toNat / 2 ^ 32 % 2 ^ 24 := by
  simp only [rsvField, BitVec.extractLsb'_toNat, Nat.shiftRight_eq_div_pow]

/-- The value of ARG is the word's number below bit 32 (R101). -/
theorem argField_toNat (w : Command) : (argField w).toNat = w.toNat % 2 ^ 32 := by
  simp only [argField, BitVec.extractLsb'_toNat, Nat.shiftRight_zero]

/-- The value of ARG[31:16] (R102). -/
theorem argHigh_toNat (arg : Word32) : (argHigh arg).toNat = arg.toNat / 2 ^ 16 := by
  simp only [argHigh, BitVec.extractLsb'_toNat, Nat.shiftRight_eq_div_pow]
  omega

/-- The value of ARG[15:0] (R102). -/
theorem argLow_toNat (arg : Word32) : (argLow arg).toNat = arg.toNat % 2 ^ 16 := by
  simp only [argLow, BitVec.extractLsb'_toNat, Nat.shiftRight_zero]

/-- The value of ARG[31:8] (R102). -/
theorem argAboveSel_toNat (arg : Word32) : (argAboveSel arg).toNat = arg.toNat / 2 ^ 8 := by
  simp only [argAboveSel, BitVec.extractLsb'_toNat, Nat.shiftRight_eq_div_pow]
  omega

/-- The value of ARG[7:0] (R102). -/
theorem argSel_toNat (arg : Word32) : (argSel arg).toNat = arg.toNat % 2 ^ 8 := by
  simp only [argSel, BitVec.extractLsb'_toNat, Nat.shiftRight_zero]

/-- The fault that the model finds for word `w` on port `p` (R107). -/
def wordFault (p : Port) (c : Config) (w : Command) : Option FaultCode :=
  match decode w with
  | .ok i => commandFault p c i
  | .error .unknownOpcode => some .unknownOpcode
  | .error (.reservedBits op) => some (if portAllows p op then .reservedBits else .wrongPort)

/-- A word with a fault raises it and answers the words its OPC frames (R106, R272). -/
theorem runWord_of_wordFault {w : Command} {s : State} {k : FaultCode}
    (h : wordFault s.port s.cfg w = some k) :
    runWord w s = .next (raiseFault k (Claims.responseCount s.cfg w) s) := by
  rw [responseCount_eq_frameWords, ← decodedOpcode_decode, runWord]
  unfold wordFault at h
  split at h
  · next i hdecode =>
    rw [hdecode]
    exact exec_of_fault h
  · next hdecode =>
    cases h
    rw [hdecode]
    rfl
  · next op hdecode =>
    cases h
    rw [hdecode]
    cases hport : portAllows s.port op <;> simp [rejectCommand, hport, decodedOpcode]

/-- A fault answers the framed words as zeros (R272). -/
theorem raiseFault_answered (k : FaultCode) (n : Nat) (s : State) :
    s.answered (raiseFault k n s) (List.replicate n zeroWord) where
  cmds := raiseFault_cmds k n s
  resps p := by by_cases hp : p = s.port <;> simp [hp]
  rst := raiseFault_rst k n s
  port := raiseFault_port k n s
  draws := raiseFault_draws k n s

/-- A command's effect leaves the fault bit and the error code. -/
theorem effect_err_ecode {i : Instr} {s t : State} (h : effect i s = .next t) :
    t.err = s.err ∧ t.ecode = s.ecode := by
  obtain ⟨ws, rfl, -, -⟩ | ⟨sample, -, -, rfl⟩ | ⟨-, -, rfl⟩ := effect_cases h
  · exact ⟨rfl, rfl⟩
  · simp
  · exact ⟨rfl, rfl⟩

/-- A command without a fault leaves the fault bit and the error code. -/
theorem exec_err_ecode_of_no_fault {i : Instr} {s t : State} (hfault : commandFault s.port s.cfg i = none)
    (h : exec i s = .next t) : t.err = s.err ∧ t.ecode = s.ecode := by
  rw [exec_eq_guarded] at h
  obtain ⟨k, hk, -⟩ | ⟨-, -, -, rfl⟩ | ⟨-, -, heffect⟩ := guarded_cases h
  · rw [hfault] at hk; cases hk
  · exact ⟨rfl, rfl⟩
  · exact effect_err_ecode heffect

/-- A word without a fault decodes to a command without one. -/
theorem decode_of_wordFault_none {p : Port} {c : Config} {w : Command} (h : wordFault p c w = none) :
    ∃ i, decode w = .ok i ∧ commandFault p c i = none := by
  unfold wordFault at h
  split at h
  · next i hdecode => exact ⟨i, hdecode, h⟩
  · cases h
  · cases h

/-- A word without a fault leaves the fault bit and the error code (10_state.md R39, R40). -/
theorem runWord_err_ecode_of_no_fault {w : Command} {s t : State} (hfault : wordFault s.port s.cfg w = none)
    (h : runWord w s = .next t) : t.err = s.err ∧ t.ecode = s.ecode := by
  obtain ⟨i, hdecode, hnone⟩ := decode_of_wordFault_none hfault
  rw [runWord, hdecode] at h
  exact exec_err_ecode_of_no_fault hnone h

/-- A field is 0 exactly when its value is. -/
theorem eq_zero_iff_toNat {n : Nat} (b : BitVec n) : b = 0#n ↔ b.toNat = 0 := by simp [← BitVec.toNat_inj]

/-- The fault in the operands that ARG holds for an opcode: a "must be 0" bit first, then the range (R107). -/
def argFault (c : Config) (op : Opcode) (arg : Word32) : Option FaultCode :=
  (decodeArg op arg).elim (some .reservedBits) (rangeFault c)

/-- The checks on a word of an assigned opcode in the order of R107: port rights, RSV, ARG. -/
theorem wordFault_of_opcode {p : Port} {c : Config} {w : Command} {op : Opcode}
    (hop : opcodeOfByte (opcField w) = some op) :
    wordFault p c w =
      if portAllows p op = false then some .wrongPort
      else if (rsvField w).toNat ≠ 0 then some .reservedBits
      else argFault c op (argField w) := by
  simp only [wordFault, decode, hop, argFault]
  by_cases hrsv : (rsvField w).toNat = 0
  · cases harg : decodeArg op (argField w) with
    | none => simp [eq_zero_iff_toNat, hrsv, ← Bool.not_eq_true, apply_ite some]
    | some i => simp [eq_zero_iff_toNat, hrsv, commandFault, opcode_of_decodeArg harg, ← Bool.not_eq_true]
  · simp [eq_zero_iff_toNat, hrsv, ← Bool.not_eq_true, apply_ite some]

/-- Where ARG decodes only under a condition on its "must be 0" bits, that check stands before the range check
(R107). -/
theorem argFault_of_check (c : Config) {op : Opcode} {arg : Word32} {i : Instr} {q : Prop} [Decidable q]
    (h : decodeArg op arg = if q then some i else none) :
    argFault c op arg = if q then rangeFault c i else some .reservedBits := by
  rw [argFault, h]
  split <;> rfl

/-- Where ARG holds no operand every bit of it must be 0 (R102). -/
theorem argFault_of_no_operand (c : Config) (arg : Word32) {op : Opcode}
    (hop : op ∈ [.nop, .tick, .rdSurface, .rdStatus]) :
    argFault c op arg = if arg.toNat ≠ 0 then some .reservedBits else none := by
  simp only [List.mem_cons, List.not_mem_nil, or_false] at hop
  obtain rfl | rfl | rfl | rfl := hop <;>
    exact (argFault_of_check c rfl).trans (by simp [eq_zero_iff_toNat, rangeFault])

theorem argFault_push (c : Config) (arg : Word32) : argFault c .push arg = none := rfl

theorem argFault_rdTbuf (c : Config) (arg : Word32) :
    argFault c .rdTbuf arg =
      if arg.toNat / 2 ^ 16 ≠ 0 then some .reservedBits
      else if arg.toNat % 2 ^ 16 ≥ 2 * c.N then some .tbufRange else none := by
  refine (argFault_of_check c rfl).trans ?_
  rw [← argHigh_toNat, ← argLow_toNat]
  simp [eq_zero_iff_toNat, rangeFault, tbufIndexFault]

theorem argFault_rdPixel (c : Config) (arg : Word32) :
    argFault c .rdPixel arg =
      if arg.toNat % 2 ^ 16 ≥ c.W ∨ arg.toNat / 2 ^ 16 ≥ c.H then some .pixelRange else none := by
  simp [argFault, decodeArg, rangeFault, pixelFault, argLow_toNat, argHigh_toNat]

theorem argFault_rdConfig (c : Config) (arg : Word32) :
    argFault c .rdConfig arg =
      if arg.toNat / 2 ^ 8 ≠ 0 then some .reservedBits
      else if arg.toNat % 2 ^ 8 > 5 then some .configRange else none := by
  refine (argFault_of_check c rfl).trans ?_
  rw [← argAboveSel_toNat, ← argSel_toNat]
  simp [eq_zero_iff_toNat, rangeFault, selectorFault]

/-- An unassigned OPC is the fault that R107 checks first. -/
theorem wordFault_of_unassigned (p : Port) (c : Config) {w : Command}
    (hop : opcodeOfByte (opcField w) = none) : wordFault p c w = some .unknownOpcode := by
  simp [wordFault, decode, hop]

/-- OPC is unassigned exactly when it is none of the numbers of R104. -/
theorem opcodeOfByte_eq_none_iff (b : BitVec 8) :
    opcodeOfByte b = none ↔ b.toNat ∉ [0x00, 0x01, 0x10, 0x11, 0x20, 0x21, 0x30, 0x31] := by
  revert b; decide

/-- The check order that the claim reads off the word's number is the model's (R107, R274). -/
theorem faultCode_eq_wordFault (c : Config) (p : Port) (w : Command) :
    Claims.faultCode c p w = (wordFault p c w).map FaultCode.code := by
  rw [Claims.faultCode, ← opcField_toNat, ← rsvField_toNat, ← argField_toNat]
  cases hop : opcodeOfByte (opcField w) with
  | none =>
    rw [wordFault_of_unassigned p c hop]
    exact if_pos ((opcodeOfByte_eq_none_iff _).1 hop)
  | some op =>
    rw [wordFault_of_opcode hop, byte_of_opcodeOfByte hop]
    cases op <;>
      simp [Opcode.byte, portAllows, argFault_of_no_operand, argFault_push, argFault_rdTbuf, argFault_rdPixel,
        argFault_rdConfig, apply_ite (Option.map FaultCode.code), FaultCode.code]

/-- Settles O12: the claim's checks are the model's, a word that fails one raises its fault, and a word that passes
all leaves the fault bit and the code. -/
theorem faultsFollowCheckOrder : Obligations.FaultsFollowCheckOrder := by
  intro s w
  rw [faultCode_eq_wordFault]
  constructor
  · intro code hcode
    obtain ⟨k, hfault, rfl⟩ := Option.map_eq_some_iff.1 hcode
    refine ⟨_, runWord_of_wordFault hfault, raiseFault_cfg _ _ s, raiseFault_mem _ _ s, raiseFault_idx _ _ s,
      raiseFault_ready _ _ s, raiseFault_rendered _ _ s, raiseFault_err _ _ s, fun herr => ?_, fun herr => ?_,
      raiseFault_answered _ _ s⟩ <;> simp [herr]
  · intro hnone t h
    exact runWord_err_ecode_of_no_fault (Option.map_eq_none_iff.1 hnone) h

/-- Settles O50: every port of a halted block is open and withholds nothing. -/
theorem haltedBlockKeepsEveryPortFree : Obligations.HaltedBlockKeepsEveryPortFree := by
  intro s a stall p w herr hrst
  have hopen : portOpen p s = true := by rw [portOpen_of_halted p herr, hrst]; rfl
  rw [offerCommand_of_not_withheld w (withholds_of_halted a stall p herr) hopen]
  exact ⟨PerPort.get_set_same s.cmds p _, ⟨rfl, rfl, rfl, rfl, rfl, rfl, rfl⟩,
    fun q hq => PerPort.get_set_other s.cmds p q _ hq, rfl⟩

end Sys2Proof.Machine

/-! PROOFS. Reset and hazards: port R's flow control, and what an accepted offer leaves
(70_reset_and_hazards.md R306 to R308). -/

namespace Sys2Proof.Machine

/-- Port R withholds exactly where a running block's implementation would like to during a tick or a surface read
(R308). -/
theorem withholds_reader_iff (a : Activity) (stall : Bool) (s : State) :
    withholds a stall .reader s = true ↔
      s.err = false ∧ stall = true ∧ (a.tickCycles ≠ none ∨ a.surfaceRead = true) := by
  simp [withholds, mustWithhold, mayWithhold, Option.isSome_iff_ne_none]

/-- A command accepted on an open port waits behind the port's earlier ones, and nothing else changes. -/
theorem offerCommand_frame_of_not_withheld {a : Activity} {stall : Bool} {p : Port} {s : State} (w : Command)
    (hwithhold : withholds a stall p s = false) (hopen : portOpen p s = true) :
    (offerCommand a stall p w s).cmds.get p = s.cmds.get p ++ [w] ∧
    s.sameBlock (offerCommand a stall p w s) ∧
    (∀ q, q ≠ p → (offerCommand a stall p w s).cmds.get q = s.cmds.get q) ∧
    (offerCommand a stall p w s).resps = s.resps := by
  rw [offerCommand_of_not_withheld w hwithhold hopen]
  exact ⟨PerPort.get_set_same s.cmds p _, ⟨rfl, rfl, rfl, rfl, rfl, rfl, rfl⟩,
    fun q hq => PerPort.get_set_other s.cmds p q _ hq, rfl⟩

/-- Settles O51: `withholds_reader_iff` says when the offer is withheld, and with no reset asserted port R is
open. -/
theorem portRWaitsOnlyForATickOrASurfaceRead : Obligations.PortRWaitsOnlyForATickOrASurfaceRead := by
  refine ⟨fun s a w herr hbusy => if_pos ((withholds_reader_iff a true s).2 ⟨herr, rfl, hbusy⟩),
    fun s a stall w hrst hfree => ?_⟩
  have hwithhold : withholds a stall .reader s = false := by
    refine Bool.eq_false_iff.2 fun hwithheld => ?_
    obtain ⟨-, hstall, hbusy⟩ := (withholds_reader_iff a stall s).1 hwithheld
    obtain hnostall | ⟨hnotick, hnoread⟩ := hfree
    · simp [hstall] at hnostall
    · simp [hnotick, hnoread] at hbusy
  have hopen : portOpen .reader s = true := by rw [portOpen_reader, hrst]; rfl
  exact offerCommand_frame_of_not_withheld w hwithhold hopen

end Sys2Proof.Machine

/-! PROOFS. Encoding: a word is put together from its fields, so a word that decodes is its command's word; the
assembler keeps a literal whole or refuses it, and emits only words that decode (30_encoding.md R101, R102, R108,
R110). -/

namespace Sys2Proof

/-- Settles O4: `decode_encode` reads each field of the word back. -/
theorem decodeOfEncodeIsTheCommand : Obligations.DecodeOfEncodeIsTheCommand := decode_encode

/-- A word is its three fields (R101). -/
theorem fields_append (w : Command) : opcField w ++ rsvField w ++ argField w = w := by
  have hhigh : opcField w ++ rsvField w = w.extractLsb' 32 32 :=
    BitVec.extractLsb'_append_extractLsb'_eq_extractLsb' rfl
  rw [hhigh]
  exact (BitVec.extractLsb'_append_extractLsb'_eq_extractLsb' rfl).trans BitVec.extractLsb'_eq_self

/-- ARG is its two halves (R102). -/
theorem argHigh_append_argLow (arg : Word32) : argHigh arg ++ argLow arg = arg :=
  (BitVec.extractLsb'_append_extractLsb'_eq_extractLsb' rfl).trans BitVec.extractLsb'_eq_self

/-- ARG is `SEL` below the bits above it (R102). -/
theorem argAboveSel_append_argSel (arg : Word32) : argAboveSel arg ++ argSel arg = arg :=
  (BitVec.extractLsb'_append_extractLsb'_eq_extractLsb' rfl).trans BitVec.extractLsb'_eq_self

/-- No bit of ARG is ignored: the operands read from it write it again (R102, R108). -/
theorem arg_of_decodeArg {op : Opcode} {arg : Word32} {i : Instr} (h : decodeArg op arg = some i) :
    i.arg = arg := by
  cases op <;> simp only [decodeArg, Option.ite_none_right_eq_some, Option.some.injEq] at h
  case nop | tick | rdSurface | rdStatus => obtain ⟨rfl, rfl⟩ := h; rfl
  case push => subst h; rfl
  case rdPixel => subst h; exact argHigh_append_argLow arg
  case rdTbuf =>
    obtain ⟨hhigh, rfl⟩ := h
    have hwhole := argHigh_append_argLow arg
    rwa [hhigh] at hwhole
  case rdConfig =>
    obtain ⟨habove, rfl⟩ := h
    have hwhole := argAboveSel_append_argSel arg
    rwa [habove] at hwhole

/-- A word decodes to a command only if OPC names its opcode, RSV is 0 and ARG holds its operands (R107). -/
theorem fields_of_decode {w : Command} {i : Instr} (h : decode w = .ok i) :
    opcodeOfByte (opcField w) = some i.opcode ∧ rsvField w = 0 ∧ decodeArg i.opcode (argField w) = some i := by
  have hop : opcodeOfByte (opcField w) = some i.opcode := by rw [← decodedOpcode_decode, h]; rfl
  simp only [decode, hop] at h
  split_ifs at h with hrsv
  cases harg : decodeArg i.opcode (argField w) with
  | none => simp [harg] at h
  | some j =>
    simp only [harg, Except.ok.injEq] at h
    exact ⟨hop, hrsv, congrArg some h⟩

/-- Settles O5: the command has the word's own OPC, RSV and ARG, and these are the whole word. -/
theorem encodeOfDecodeIsTheWord : Obligations.EncodeOfDecodeIsTheWord := by
  intro w i h
  obtain ⟨hop, hrsv, harg⟩ := fields_of_decode h
  calc encode i
    _ = i.opcode.byte ++ (0 : BitVec 24) ++ i.arg := rfl
    _ = opcField w ++ rsvField w ++ argField w := by
      rw [byte_of_opcodeOfByte hop, hrsv, arg_of_decodeArg harg]
    _ = w := fields_append w

end Sys2Proof

namespace Sys2Proof.Machine

/-- A listing whose first line names no port is refused (R110). -/
theorem assemble_of_no_port {l : SourceLine} (ls : List SourceLine) (h : l.port = none) :
    assemble none (l :: ls) = .error .noPort := by
  simp [assemble, linePort, h]

/-- The words of an assembled listing are the first line's commands and the words of the other lines. -/
theorem assemble_cons {previous : Option Port} {l : SourceLine} {ls : List SourceLine}
    {out : List (Port × Command)} (h : assemble previous (l :: ls) = .ok out) :
    ∃ (p : Port) (is : List Instr) (more : List (Port × Command)),
      assemble (some p) ls = .ok more ∧ out = is.map (fun i => (p, encode i)) ++ more := by
  unfold assemble at h
  split at h
  · cases h
  · cases h
  · next p is _ _ =>
    split at h
    · cases h
    · next more hmore =>
      cases h
      exact ⟨p, is, more, hmore, rfl⟩

/-- Every word of an assembled listing decodes, being the word of a command (R110). -/
theorem decode_of_assemble {previous : Option Port} {ls : List SourceLine} {out : List (Port × Command)}
    (h : assemble previous ls = .ok out) : ∀ e ∈ out, ∃ i, decode e.2 = .ok i := by
  induction ls generalizing previous out with
  | nil => cases h; simp
  | cons l ls ih =>
    obtain ⟨p, is, more, hmore, rfl⟩ := assemble_cons h
    intro e he
    obtain hfirst | hrest := List.mem_append.1 he
    · obtain ⟨i, -, rfl⟩ := List.mem_map.1 hfirst
      exact ⟨i, decode_encode i⟩
    · exact ih hmore e hrest

/-- A literal that fits its field is kept whole (R110). -/
theorem fieldOf_of_fits {w n : Nat} (h : n < 2 ^ w) : fieldOf w n = .ok (BitVec.ofNat w n) := if_pos h

/-- A literal that does not fit its field is refused (R110). -/
theorem fieldOf_of_wide {w n : Nat} (h : ¬ n < 2 ^ w) : fieldOf w n = .error .literalTooWide := if_neg h

theorem expandOp_push (n : Nat) :
    expandOp (.push n) = if n < 2 ^ 32 then .ok [.push (BitVec.ofNat 32 n)] else .error .literalTooWide := by
  by_cases hn : n < 2 ^ 32
  · simp only [expandOp, pushWords, fieldOf_of_fits hn, if_pos hn]
  · simp only [expandOp, pushWords, fieldOf_of_wide hn, if_neg hn]

theorem expandOp_rdPixel (x y : Nat) :
    expandOp (.rdPixel x y) =
      if x < 2 ^ 16 ∧ y < 2 ^ 16 then .ok [.rdPixel (BitVec.ofNat 16 x) (BitVec.ofNat 16 y)]
      else .error .literalTooWide := by
  by_cases hx : x < 2 ^ 16
  · by_cases hy : y < 2 ^ 16
    · simp only [expandOp, fieldOf_of_fits hx, fieldOf_of_fits hy, hx, hy, and_self, if_true]
    · simp only [expandOp, fieldOf_of_fits hx, fieldOf_of_wide hy, hy, and_false, if_false]
  · simp only [expandOp, fieldOf_of_wide hx, hx, false_and, if_false]

/-- Settles O43: each literal stands or falls with `fieldOf`, and every word emitted is a command's. -/
theorem assemblerRefusesWideLiterals : Obligations.AssemblerRefusesWideLiterals := by
  have hmap {w : Nat} (f : BitVec w → List Instr) (n : Nat) : (fieldOf w n).map f =
      if n < 2 ^ w then .ok (f (BitVec.ofNat w n)) else .error .literalTooWide :=
    apply_ite (Except.map f) (n < 2 ^ w) _ _
  exact ⟨expandOp_push, hmap fun t => [.rdTbuf t], expandOp_rdPixel, hmap fun n => [.rdConfig n],
    fun l ls => assemble_of_no_port ls, fun previous ls out => decode_of_assemble⟩

end Sys2Proof.Machine

/-! PROOFS. The construction parameters: numbers in the ranges of 00_scope.md R7 to R10 give their configuration, and
any others are refused (93_implementation_defined.md U9, U17). -/

namespace Sys2Proof.Config

/-- The search for `N` finds its exponent where `N` is a power of two in range (R7). -/
theorem find_blockLog_of_pow {n : Nat} (h : ∃ k, k ≤ 15 ∧ n = 2 ^ k) :
    ∃ k : Fin 16, (List.finRange 16).find? (fun k => 2 ^ k.val == n) = some k ∧ 2 ^ k.val = n := by
  obtain ⟨k, hk, rfl⟩ := h
  have hfound : ((List.finRange 16).find? (fun j => 2 ^ j.val == 2 ^ k)).isSome = true :=
    List.find?_isSome.2 ⟨⟨k, by omega⟩, List.mem_finRange _, by simp⟩
  obtain ⟨j, hj⟩ := Option.isSome_iff_exists.1 hfound
  exact ⟨j, hj, by simpa using List.find?_some hj⟩

/-- The search for `N` finds nothing where `N` is no power of two in range (R7). -/
theorem find_blockLog_of_not_pow {n : Nat} (h : ¬ ∃ k, k ≤ 15 ∧ n = 2 ^ k) :
    (List.finRange 16).find? (fun k => 2 ^ k.val == n) = none := by
  refine List.find?_eq_none.2 fun k _ hpow => h ⟨k.val, by omega, ?_⟩
  exact (beq_iff_eq.1 hpow).symm

section OfParams

variable {n w h b x : Nat} {mag : MagPolicy} {eng : Engine} {tickMax : Nat}

/-- Parameters in the ranges give a configuration with their values (R7 to R10). -/
theorem ofParams_of_legal (hn : ∃ k, k ≤ 15 ∧ n = 2 ^ k) (hw : 1 ≤ w ∧ w ≤ 65536) (hh : 1 ≤ h ∧ h ≤ 65536)
    (hb : 1 ≤ b ∧ b ≤ 4294967295) (hx : x ≤ 1) :
    ∃ c, ofParams n w h b x mag eng tickMax = .ok c ∧ c.N = n ∧ c.W = w ∧ c.H = h ∧ c.B = b ∧ c.xModeCode = x := by
  obtain ⟨k, hfind, hpow⟩ := find_blockLog_of_pow hn
  simp only [ofParams, hfind, dif_pos hw, dif_pos hh, dif_pos hb, if_pos hx]
  refine ⟨_, rfl, hpow, Nat.sub_add_cancel hw.1, Nat.sub_add_cancel hh.1, Nat.sub_add_cancel hb.1, ?_⟩
  interval_cases x <;> rfl

/-- A configuration comes only from parameters in the ranges (U9, U17). -/
theorem legal_of_ofParams {c : Config} (hc : ofParams n w h b x mag eng tickMax = .ok c) :
    (∃ k, k ≤ 15 ∧ n = 2 ^ k) ∧ (1 ≤ w ∧ w ≤ 65536) ∧ (1 ≤ h ∧ h ≤ 65536) ∧ (1 ≤ b ∧ b ≤ 4294967295) ∧
      x ≤ 1 := by
  have hn : ∃ k, k ≤ 15 ∧ n = 2 ^ k := by
    by_contra hn
    simp [ofParams, find_blockLog_of_not_pow hn] at hc
  obtain ⟨k, hfind, -⟩ := find_blockLog_of_pow hn
  simp only [ofParams, hfind] at hc
  split_ifs at hc with hw hh hb hx <;>
    exact ⟨hn, hw, hh, hb, hx⟩

end OfParams

end Sys2Proof.Config

namespace Sys2Proof.Machine

/-- Settles O44: legal parameters give their configuration, and an outcome that is no refusal comes from legal ones
only. -/
theorem illegalParametersAreRefused : Obligations.IllegalParametersAreRefused := by
  intro n w h b x mag eng tickMax
  constructor
  · rintro ⟨hn, hw, hw', hh, hh', hb, hb', hx⟩
    exact Config.ofParams_of_legal hn ⟨hw, hw'⟩ ⟨hh, hh'⟩ ⟨hb, hb'⟩ hx
  · intro hillegal
    cases hparams : Config.ofParams n w h b x mag eng tickMax with
    | error r => exact ⟨r, rfl⟩
    | ok c =>
      obtain ⟨hn, ⟨hw, hw'⟩, ⟨hh, hh'⟩, ⟨hb, hb'⟩, hx⟩ := Config.legal_of_ofParams hparams
      exact absurd ⟨hn, hw, hw', hh, hh', hb, hb', hx⟩ hillegal

end Sys2Proof.Machine

/-! PROOFS. A step: the served port, the command it takes, and that around the command only the model's own fields
advance (20_memory.md R80, R81; log entries 3, 4, 10 and 15). -/

namespace Sys2Proof.Machine

/-- What a step makes of its command's outcome: after a command that goes on, the next draw. -/
def afterCommand (d : Nat) : Host.Outcome State Fault Refusal → Host.Outcome State Fault Refusal
  | .next t => .next (drawNext d t)
  | .fault f => .fault f
  | .refused r => .refused r

/-- With the reset input released a step runs the served port's oldest command (R80). -/
theorem step_of_served {s : State} {p : Port} {w : Command} (hrst : s.rst = false) (hserved : servedPort s = some p)
    (holdest : oldestCommand s p = some w) : step s = afterCommand s.draws (runWord w (takeCommand s p)) := by
  rw [step, if_neg (by simp [hrst])]
  simp only [hserved, holdest]
  rfl

/-- With the reset input released and no command waiting a step changes nothing (log entry 15). -/
theorem step_of_idle {s : State} (hrst : s.rst = false) (hidle : servedPort s = none) : step s = .next s := by
  rw [step, if_neg (by simp [hrst])]
  simp only [hidle]

theorem runWord_of_decode {w : Command} {i : Instr} (h : decode w = .ok i) (s : State) : runWord w s = exec i s := by
  simp only [runWord, h]

theorem runWord_of_reject {w : Command} {r : DecodeReject} (h : decode w = .error r) (s : State) :
    runWord w s = .next (rejectCommand r s) := by
  simp only [runWord, h]

/-- Settles O7: the step is the word's outcome with the next draw, and the word's outcome is that of what it decodes
to. -/
theorem stepExecutesServedCommand : Obligations.StepExecutesServedCommand := by
  intro s p w hrst hserved holdest
  have hstep := step_of_served hrst hserved holdest
  refine ⟨fun i hdecode => ?_, fun r hreject => ?_⟩
  · rw [hstep, runWord_of_decode hdecode]
    rfl
  · rw [hstep, runWord_of_reject hreject]
    rfl

/-- The search for a waiting command goes through all three ports. -/
theorem forall_port_iff (p : Port) {P : Port → Prop} :
    (∀ q, P q) ↔ P p ∧ P (nextPort p) ∧ P (nextPort (nextPort p)) := by
  refine ⟨fun h => ⟨h _, h _, h _⟩, fun ⟨h₁, h₂, h₃⟩ q => ?_⟩
  cases p <;> cases q <;> assumption

/-- No port is served exactly when no command waits (R80). -/
theorem servedPort_eq_none_iff (s : State) : servedPort s = none ↔ ∀ p, s.cmds.get p = [] := by
  rw [forall_port_iff s.port]
  rw [servedPort]
  split_ifs <;> simp_all

/-- The granted port is served where it has a command waiting (R81). -/
theorem servedPort_of_waiting {s : State} (h : s.cmds.get s.port ≠ []) : servedPort s = some s.port :=
  if_pos (by simpa using h)

/-- Settles O8: the search for a waiting command begins at the granted port and goes through all three. -/
theorem grantedPortIsServed : Obligations.GrantedPortIsServed :=
  ⟨fun _ _ hwaiting => servedPort_of_waiting hwaiting,
    fun s => ⟨servedPort_eq_none_iff s, step_of_idle⟩, fun _ _ => servedPort_waiting⟩

@[simp] theorem PerPort.set_set {α : Type} (q : PerPort α) (p : Port) (a b : α) :
    (q.set p a).set p b = q.set p b := by
  cases p <;> rfl

/-- A word of an assigned opcode is placed on a port on which the opcode is legal (log entry 10). -/
theorem portAllows_portForWord {w : Command} {op : Opcode} (h : opcodeOfByte (opcField w) = some op) :
    portAllows (portForWord w) op = true := by
  rw [portForWord, h]
  cases op <;> rfl

/-- Settles O9: the word stands first on its port, which is granted and so is served. -/
theorem fetchWordIsServedNext : Obligations.FetchWordIsServedNext := by
  intro s w hw
  rw [State.withFetchWord, Nat.mod_eq_of_lt hw]
  set word : Command := BitVec.ofNat 64 w
  have hqueue : (s.cmds.set (portForWord word) (word :: s.cmds.get (portForWord word))).get (portForWord word) =
      word :: s.cmds.get (portForWord word) := PerPort.get_set_same _ _ _
  refine ⟨rfl, portForWord word, servedPort_of_waiting ?_, ?_, ?_, fun i hdecode => ?_, ?_⟩
  · exact ne_of_eq_of_ne hqueue (List.cons_ne_nil _ _)
  · exact congrArg List.head? hqueue
  · exact congrArg List.tail hqueue
  · rw [← portAllows_eq_ports]
    exact portAllows_portForWord (fields_of_decode hdecode).1
  · simp

/-- Settles O10: a command leaves the queues and adds to the issuing port's stream alone, and the step took the command
off that port's queue. -/
theorem portsKeepTheirOrder : Obligations.PortsKeepTheirOrder := by
  intro s t hrst h
  obtain ⟨hrst', -⟩ | ⟨-, hidle, rfl⟩ | ⟨p, w, u, -, hserved, -, hrun, rfl⟩ := step_cases h
  · rw [hrst] at hrst'; cases hrst'
  · exact ⟨fun _ _ => ⟨rfl, rfl⟩, fun p hp => by rw [hidle] at hp; cases hp⟩
  · obtain ⟨hcmds, -⟩ := runWord_cmds_err hrun
    obtain ⟨ws, -, hresps⟩ := runWord_addsResponses hrun
    rw [takeCommand_cmds] at hcmds
    rw [takeCommand_resps, takeCommand_port] at hresps
    refine ⟨fun q hq => ?_, fun q hq => ?_⟩
    · have hother : q ≠ p := fun heq => hq (heq ▸ hserved)
      simp [hcmds, hresps, hother]
    · obtain rfl : p = q := Option.some.inj (hserved.symm.trans hq)
      refine ⟨servedPort_waiting hserved, ?_, ?_⟩
      · simp [hcmds]
      · simp [hresps]

end Sys2Proof.Machine

/-! PROOFS. What the steps keep: the invariant of Safety.lean, which also rules out the model's own stop; the block in
the halted state; and the cursor and the Fifo but for a push (10_state.md R33, 60_exceptions.md R270 to R277). -/

namespace Sys2Proof.Machine

section SameBlock

variable {s t u : State}

theorem sameBlock_trans (hst : s.sameBlock t) (htu : t.sameBlock u) : s.sameBlock u :=
  ⟨htu.cfg.trans hst.cfg, htu.mem.trans hst.mem, htu.idx.trans hst.idx, htu.ready.trans hst.ready,
    htu.rendered.trans hst.rendered, htu.err.trans hst.err, htu.ecode.trans hst.ecode⟩

theorem takeCommand_sameBlock (s : State) (p : Port) : s.sameBlock (takeCommand s p) :=
  ⟨rfl, rfl, rfl, rfl, rfl, rfl, rfl⟩

theorem drawNext_sameBlock (d : Nat) (s : State) : s.sameBlock (drawNext d s) :=
  ⟨rfl, rfl, rfl, rfl, rfl, rfl, rfl⟩

/-- The invariant speaks of the block alone, not of the ports. -/
theorem inv_of_sameBlock (hblock : s.sameBlock t) (h : s.Inv) : t.Inv := by
  cases s
  cases t
  obtain ⟨rfl, rfl, rfl, rfl, rfl, rfl, rfl⟩ := hblock
  exact ⟨h.storage, h.cursor, h.written, h.wholeFifo, h.input, h.scratch, h.painted, h.unpainted, h.noCode, h.code⟩

end SameBlock

/-- The invariant holds after a reset of any block (R45 to R50). -/
theorem resetWith_inv (c : Config) (d : Nat) : (State.resetWith c d).Inv where
  storage := Memory.unwritten_wf c
  cursor := Nat.zero_le _
  written := nofun
  wholeFifo := nofun
  input := nofun
  scratch := nofun
  painted := nofun
  unpainted _ := rfl
  noCode _ := rfl
  code := nofun

/-- Settles O2: a step with reset asserted is the reset of its own block. -/
theorem resetEstablishesInvariant : Obligations.ResetEstablishesInvariant := by
  refine ⟨resetWith_inv _ _, fun s t hrst h => ?_⟩
  rw [step_of_reset hrst] at h
  cases h
  exact resetWith_inv _ _

section Inv

variable {s t : State}

/-- The codes of the faults are 1 to 6 (60_exceptions.md R271). -/
theorem code_range (k : FaultCode) : 1 ≤ k.code.toNat ∧ k.code.toNat ≤ 6 := by
  cases k <;> decide

/-- A fault keeps the invariant: it leaves the first code, or sets one of 1 to 6 (R40, R272). -/
theorem raiseFault_keeps_inv (k : FaultCode) (n : Nat) (h : s.Inv) : (raiseFault k n s).Inv := by
  rw [raiseFault]
  refine inv_of_sameBlock (respond_sameBlock _ _) ?_
  split
  · exact h
  · exact { h with noCode := nofun, code := fun _ => code_range k }

/-- Taking the cursor back to 0 keeps the invariant. -/
theorem setIdx_zero_keeps_inv (h : s.Inv) : (setIdx 0 s).Inv :=
  { h with cursor := Nat.zero_le _, written := nofun }

/-- The transfer of a full Fifo keeps the invariant: it leaves a whole input with a scratch half of zeros (40_fifo.md
R142). -/
theorem transferBlock_keeps_inv (hfull : s.idx.toNat = s.cfg.N) (h : s.Inv) : (transferBlock s).Inv :=
  { h with
    storage := writeTbufAll_wf s _ h.storage
    wholeFifo := fun _ j hj => h.written j (hfull ▸ hj)
    input := fun _ j hj => by
      rw [transferBlock_cfg] at hj
      rw [cellAt_transferBlock_tbuf, if_pos hj, Option.isSome_some]
    scratch := fun _ j hlo hhi => by
      rw [transferBlock_cfg] at hlo hhi
      rw [cellAt_transferBlock_tbuf, if_pos hhi, if_neg hlo.not_gt] }

/-- The fullness check keeps the invariant, transfer or drop (40_fifo.md R142 to R144). -/
theorem checkFullness_keeps_inv (h : s.Inv) : (checkFullness s).Inv := by
  by_cases hfull : s.idx.toNat = s.cfg.N
  · rw [checkFullness_full s hfull]
    split
    · exact setIdx_zero_keeps_inv h
    · exact setIdx_zero_keeps_inv (transferBlock_keeps_inv hfull h)
  · rwa [checkFullness_not_full s hfull]

/-- After a write an index is written if it was before or is the one written. -/
theorem isSome_cellWrite {w : Nat} {m : Cells w} {j k : Nat} (v : BitVec w)
    (h : k ≠ j → (cellAt m k).isSome = true) : (cellAt (cellWrite m j v) k).isSome = true := by
  rw [cellAt_cellWrite]
  split
  · rfl
  · next hne => exact h hne

/-- Writing the slot at the cursor and advancing the cursor keep the invariant (40_fifo.md R145). -/
theorem writeAtCursor_keeps_inv (sample : Word32) (hslot : s.idx.toNat < s.cfg.N) (h : s.Inv) :
    (setIdx (s.idx + 1) (writeFifo s s.idx.toNat sample)).Inv :=
  { h with
    storage := writeFifo_wf s _ sample h.storage hslot
    cursor := (idx_succ_toNat s hslot).trans_le hslot
    written := fun j hj => isSome_cellWrite sample fun hne => by
      rw [setIdx_idx, idx_succ_toNat s hslot] at hj
      exact h.written j (by omega)
    wholeFifo := fun hblock j hj => isSome_cellWrite sample fun _ => h.wholeFifo hblock j hj }

/-- The ready path of a tick keeps the invariant: it clears the flag and leaves a painted surface (44_tick.md R222). -/
theorem tickReady_keeps_inv (hready : s.ready = true) (h : s.Inv) : (tickReady s).Inv :=
  { h with
    storage := writeSurfAll_wf (transformInPlace s) _ (writeTbufAll_wf s _ h.storage)
    wholeFifo := fun _ => h.wholeFifo (.inl hready)
    input := nofun
    scratch := nofun
    painted := fun _ j hj => by
      rw [tickReady_cfg] at hj
      rw [tickReady_surf, cellAt_fillCells, if_pos hj, Option.isSome_some]
    unpainted := nofun }

/-- What a command does once its checks have passed keeps the invariant. -/
theorem effect_keeps_inv {i : Instr} (h : s.Inv) (heffect : effect i s = .next t) : t.Inv := by
  obtain ⟨ws, rfl, -, -⟩ | ⟨sample, rfl, hslot, rfl⟩ | ⟨rfl, hready, rfl⟩ := effect_cases heffect
  · exact inv_of_sameBlock (respond_sameBlock ws s) h
  · exact writeAtCursor_keeps_inv sample (by simpa using hslot) (checkFullness_keeps_inv h)
  · exact tickReady_keeps_inv hready h

/-- Every command word keeps the invariant. -/
theorem runWord_keeps_inv {w : Command} (h : s.Inv) (hrun : runWord w s = .next t) : t.Inv := by
  obtain ⟨k, n, rfl⟩ | ⟨i, -, -, -, -, rfl⟩ | ⟨i, -, -, -, heffect⟩ := runWord_cases hrun
  · exact raiseFault_keeps_inv k n h
  · exact inv_of_sameBlock (respond_sameBlock _ s) h
  · exact effect_keeps_inv h heffect

end Inv

/-- Settles O3: a reset establishes the invariant, an idle step changes nothing, and the command word of any other step
keeps it. -/
theorem everyStepKeepsInvariant : Obligations.EveryStepKeepsInvariant := by
  intro s t h hstep
  obtain ⟨-, rfl⟩ | ⟨-, -, rfl⟩ | ⟨p, w, u, -, -, -, hrun, rfl⟩ := step_cases hstep
  · exact resetWith_inv _ _
  · exact h
  · have htaken : (takeCommand s p).Inv := inv_of_sameBlock (takeCommand_sameBlock s p) h
    exact inv_of_sameBlock (drawNext_sameBlock _ u) (runWord_keeps_inv htaken hrun)

section Stops

variable {i : Instr} {s : State}

/-- A command goes on if its effect does wherever the checks let it run. -/
theorem exec_next_of_effect (h : i.wellFormed s.port s.cfg = true → (s.err = false ∨ runsHalted i.opcode = true) →
    ∃ t, effect i s = .next t) : ∃ t, exec i s = .next t := by
  cases hfault : commandFault s.port s.cfg i with
  | some k => exact ⟨_, exec_of_fault hfault⟩
  | none =>
    have hwf := (commandFault_none_iff _ _ _).1 hfault
    by_cases hruns : s.err = false ∨ runsHalted i.opcode = true
    · rw [exec_of_runs hwf hruns]
      exact h hwf hruns
    · obtain ⟨herr, hhalts⟩ := not_or.1 hruns
      exact ⟨_, exec_of_halted hwf (Bool.eq_true_of_not_eq_false herr) (Bool.eq_false_of_not_eq_true hhalts)⟩

theorem eq_push_of_opcode (h : i.opcode = .push) : ∃ sample, i = .push sample := by
  cases i with
  | push sample => exact ⟨sample, rfl⟩
  | nop | tick | rdTbuf _ | rdPixel _ _ | rdSurface | rdStatus | rdConfig _ => cases h

/-- A command that is no running push with the cursor above `N` goes on. -/
theorem exec_next_of_cursor
    (h : ¬ (i.opcode = .push ∧ s.port = .producer ∧ s.err = false ∧ s.cfg.N < s.idx.toNat)) :
    ∃ t, exec i s = .next t := by
  refine exec_next_of_effect fun hwf hruns => ?_
  by_cases hpush : i.opcode = .push
  · obtain ⟨sample, rfl⟩ := eq_push_of_opcode hpush
    have hcursor : s.idx.toNat ≤ s.cfg.N := Nat.not_lt.1 fun habove =>
      h ⟨rfl, port_of_push_wellFormed hwf, hruns.resolve_right nofun, habove⟩
    exact ⟨_, writeSample_next _ _ (by simpa using checkFullness_idx_lt s hcursor)⟩
  · exact effect_next_of_not_push s hpush

/-- A running push with the cursor above `N` stops (log entry 9). -/
theorem exec_push_stops (sample : Word32) (hport : s.port = .producer) (herr : s.err = false)
    (habove : s.cfg.N < s.idx.toNat) : exec (.push sample) s = .fault .fifoIndexOutOfRange := by
  rw [exec_push_of_running sample hport herr, checkFullness_not_full s habove.ne',
    writeSample_fault sample s habove.not_gt]

end Stops

/-- Settles O18: the push stops, and a command that goes on does not. -/
theorem onlyACursorAboveNStops : Obligations.OnlyACursorAboveNStops := by
  intro s i
  refine ⟨⟨fun hstop => ?_, ?_⟩, exec_next_of_cursor⟩
  · by_contra hcond
    obtain ⟨t, hnext⟩ := exec_next_of_cursor hcond
    rw [hnext] at hstop
    cases hstop
  · rintro ⟨hpush, hport, herr, habove⟩
    obtain ⟨sample, rfl⟩ := eq_push_of_opcode hpush
    exact exec_push_stops sample hport herr habove

/-- A command word goes on where the cursor is at most `N`. -/
theorem runWord_next {s : State} (w : Command) (hcursor : s.idx.toNat ≤ s.cfg.N) :
    ∃ t, runWord w s = .next t := by
  cases hdecode : decode w with
  | error r => exact ⟨_, runWord_of_reject hdecode s⟩
  | ok i =>
    rw [runWord_of_decode hdecode]
    exact exec_next_of_cursor fun hstops => hcursor.not_gt hstops.2.2.2

/-- Settles O19: the invariant holds the cursor at `N` or below. -/
theorem stepNeverStops : Obligations.StepNeverStops := by
  intro s h
  cases hrst : s.rst with
  | true => exact ⟨_, step_of_reset hrst⟩
  | false =>
    cases hserved : servedPort s with
    | none => exact ⟨_, step_of_idle hrst hserved⟩
    | some p =>
      obtain ⟨w, rest, hqueue⟩ := List.exists_cons_of_ne_nil (servedPort_waiting hserved)
      obtain ⟨t, hrun⟩ := runWord_next (s := takeCommand s p) w h.cursor
      rw [step_of_served (w := w) hrst hserved (by rw [oldestCommand, hqueue]; rfl), hrun]
      exact ⟨_, rfl⟩

/-- In a halted block what still runs only answers (60_exceptions.md R273). -/
theorem effect_sameBlock_of_runsHalted {i : Instr} {s t : State} (hruns : runsHalted i.opcode = true)
    (h : effect i s = .next t) : s.sameBlock t := by
  obtain ⟨ws, rfl, -, -⟩ | ⟨sample, rfl, -, -⟩ | ⟨rfl, -, -⟩ := effect_cases h
  · exact respond_sameBlock ws s
  · cases hruns
  · cases hruns

/-- A later fault leaves the code of the first (60_exceptions.md R272). -/
theorem raiseFault_sameBlock_of_halted {s : State} (k : FaultCode) (n : Nat) (herr : s.err = true) :
    s.sameBlock (raiseFault k n s) := by
  rw [raiseFault, if_pos herr]
  exact respond_sameBlock _ s

/-- No command word changes a halted block (60_exceptions.md R273, R276). -/
theorem runWord_sameBlock_of_halted {w : Command} {s t : State} (herr : s.err = true) (h : runWord w s = .next t) :
    s.sameBlock t := by
  obtain ⟨k, n, rfl⟩ | ⟨i, -, -, -, -, rfl⟩ | ⟨i, -, -, hruns, heffect⟩ := runWord_cases h
  · exact raiseFault_sameBlock_of_halted k n herr
  · exact respond_sameBlock _ s
  · exact effect_sameBlock_of_runsHalted (hruns.resolve_left (by simp [herr])) heffect

/-- Settles O14: around the command word a step leaves the block. -/
theorem onlyResetLeavesTheHaltedState : Obligations.OnlyResetLeavesTheHaltedState := by
  intro s t herr hrst h
  obtain ⟨hrst', -⟩ | ⟨-, -, rfl⟩ | ⟨p, w, u, -, -, -, hrun, rfl⟩ := step_cases h
  · rw [hrst] at hrst'; cases hrst'
  · exact ⟨rfl, rfl, rfl, rfl, rfl, rfl, rfl⟩
  · have hword : (takeCommand s p).sameBlock u := runWord_sameBlock_of_halted herr hrun
    exact sameBlock_trans (takeCommand_sameBlock s p) (sameBlock_trans hword (drawNext_sameBlock _ u))

/-- An effect that changes the cursor or the Fifo is a push's (10_state.md R33, R34). -/
theorem effect_cursor_fifo_change {i : Instr} {s t : State} (h : effect i s = .next t)
    (hchange : t.idx ≠ s.idx ∨ t.mem.fifo ≠ s.mem.fifo) : ∃ sample, i = .push sample := by
  obtain ⟨ws, rfl, -, -⟩ | ⟨sample, rfl, -, -⟩ | ⟨-, -, rfl⟩ := effect_cases h
  · simp at hchange
  · exact ⟨sample, rfl⟩
  · simp at hchange

/-- A command word that changes the cursor or the Fifo is a running push of port P (10_state.md R33, R34). -/
theorem runWord_cursor_fifo_change {w : Command} {s t : State} (h : runWord w s = .next t)
    (hchange : t.idx ≠ s.idx ∨ t.mem.fifo ≠ s.mem.fifo) :
    ∃ sample, decode w = .ok (.push sample) ∧ s.port = .producer ∧ s.err = false := by
  obtain ⟨k, n, rfl⟩ | ⟨i, -, -, -, -, rfl⟩ | ⟨i, hdecode, hwf, hruns, heffect⟩ := runWord_cases h
  · simp at hchange
  · simp at hchange
  · obtain ⟨sample, rfl⟩ := effect_cursor_fifo_change heffect hchange
    exact ⟨sample, hdecode, port_of_push_wellFormed hwf, hruns.resolve_right nofun⟩

/-- Settles O40: a step that changes the cursor or the Fifo runs a command word that does, on the port it was taken
from. -/
theorem onlyPushWritesCursorAndFifo : Obligations.OnlyPushWritesCursorAndFifo := by
  intro s t hrst h hchange
  obtain ⟨hrst', -⟩ | ⟨-, -, rfl⟩ | ⟨p, w, u, -, hserved, holdest, hrun, rfl⟩ := step_cases h
  · rw [hrst] at hrst'; cases hrst'
  · simp at hchange
  · obtain ⟨sample, hdecode, rfl, herr⟩ := runWord_cursor_fifo_change hrun hchange
    exact ⟨w, sample, hserved, holdest, hdecode, herr⟩

end Sys2Proof.Machine

/-! PROOFS. Pushes without a tick: a push with a free slot, and the first block, which waits in the Transform Buffer
(40_fifo.md R141 to R147). -/

namespace Sys2Proof.Machine

/-- On port P of a running block with a free slot at the cursor a push writes its sample there and advances the cursor
(40_fifo.md R141, R145). -/
theorem exec_push_of_slot {s : State} (sample : Word32) (hport : s.port = .producer) (herr : s.err = false)
    (hslot : s.idx.toNat < s.cfg.N) :
    exec (.push sample) s = .next (setIdx (s.idx + 1) (writeFifo s s.idx.toNat sample)) := by
  rw [exec_push_of_running sample hport herr, checkFullness_not_full s hslot.ne, writeSample_next sample s hslot]

/-- Settles O15: the push writes one Fifo slot and the cursor alone. -/
theorem pushWritesSampleAtCursor : Obligations.PushWritesSampleAtCursor := fun s sample hport herr hslot =>
  ⟨_, exec_push_of_slot sample hport herr hslot, idx_succ_toNat s hslot,
    fun j => cellAt_cellWrite s.mem.fifo s.idx.toNat j sample, rfl, rfl, rfl, rfl, rfl, rfl, rfl,
    answered_nil rfl rfl rfl rfl rfl⟩

theorem cursorAfter_of_le {c : Config} {p : Nat} (hp : p ≤ c.N) : cursorAfter c p = p := by
  cases p with
  | zero => rfl
  | succ p => rw [cursorAfter_succ, Nat.mod_eq_of_lt hp]

/-- The running block after the samples `done` and nothing else, from a cursor of 0 and a clear flag: up to `N` of them
wait in the Fifo, and with one more the first `N` have been transferred (40_fifo.md R141 to R147). -/
structure FirstBlock (c : Config) (done : List Word32) (s : State) : Prop where
  runs : RunsAt c (cursorAfter c done.length) s
  filling : done.length ≤ c.N →
    s.ready = false ∧ ∀ j, j < done.length → cellAt s.mem.fifo j = done[j]?
  transferred : c.N < done.length →
    s.ready = true ∧ ∀ j, j < 2 * c.N → cellAt s.mem.tbuf j = if j < c.N then done[j]? else some zeroWord

section FirstBlock

variable {c : Config} {done : List Word32} {s t : State} {sample : Word32}

/-- A block that begins with a cursor of 0 and a clear flag has taken no sample. -/
theorem firstBlock_nil (hidx : s.idx = 0) (hready : s.ready = false) (herr : s.err = false) :
    FirstBlock s.cfg [] s where
  runs := ⟨rfl, herr, by rw [hidx]; rfl⟩
  filling _ := ⟨hready, nofun⟩
  transferred := nofun

/-- A push with a free slot leaves the flag and adds its sample to the Fifo (40_fifo.md R145). -/
theorem firstBlock_push_of_slot (hs : FirstBlock c done s) (hport : s.port = .producer) (hlt : done.length < c.N)
    (h : exec (.push sample) s = .next t) :
    t.ready = false ∧ ∀ j, j < (done ++ [sample]).length → cellAt t.mem.fifo j = (done ++ [sample])[j]? := by
  obtain ⟨hready, hfifo⟩ := hs.filling hlt.le
  have hidx : s.idx.toNat = done.length := hs.runs.idx.trans (cursorAfter_of_le hlt.le)
  have hslot : s.idx.toNat < s.cfg.N := by rw [hidx, hs.runs.cfg]; exact hlt
  rw [exec_push_of_slot sample hport hs.runs.err hslot] at h
  cases h
  refine ⟨hready, fun j hj => ?_⟩
  simp only [setIdx_mem, writeFifo_mem, cellAt_cellWrite, hidx]
  split
  · next heq => simp [heq]
  · next hne =>
    have hold : j < done.length := by simp at hj; omega
    rw [hfifo j hold, List.getElem?_append_left hold]

/-- A push on the full Fifo transfers the first block over zeros (40_fifo.md R142). -/
theorem firstBlock_push_of_full (hs : FirstBlock c done s) (hport : s.port = .producer) (heq : done.length = c.N)
    (h : exec (.push sample) s = .next t) :
    t.ready = true ∧
      ∀ j, j < 2 * c.N → cellAt t.mem.tbuf j = if j < c.N then (done ++ [sample])[j]? else some zeroWord := by
  obtain ⟨hready, hfifo⟩ := hs.filling heq.le
  obtain ⟨rfl, herr, hcursor⟩ := hs.runs
  have hfull : s.idx.toNat = s.cfg.N := by rw [hcursor, cursorAfter_of_le heq.le, heq]
  rw [exec_push_of_full sample hport herr hfull, hready] at h
  cases h
  refine ⟨rfl, fun j hj => (cellAt_transferBlock_tbuf s j).trans ?_⟩
  rw [if_pos hj]
  split
  · next hlow =>
    have hold : j < done.length := heq ▸ hlow
    rw [List.getElem?_append_left hold, readFifo, hfifo j hold, List.getElem?_eq_getElem hold, Option.getD_some]
  · rfl

/-- A push with the first block waiting leaves it and the flag (40_fifo.md R143). -/
theorem firstBlock_push_of_ready (hs : FirstBlock c done s) (hgt : c.N < done.length)
    (h : exec (.push sample) s = .next t) :
    t.ready = true ∧
      ∀ j, j < 2 * c.N → cellAt t.mem.tbuf j = if j < c.N then (done ++ [sample])[j]? else some zeroWord := by
  obtain ⟨hready, htbuf⟩ := hs.transferred hgt
  obtain ⟨hkept, hready'⟩ := readyBlockIsNeverOverwritten.1 s t sample hready h
  refine ⟨hready', fun j hj => ?_⟩
  rw [hkept, htbuf j hj]
  split
  · next hlow => rw [List.getElem?_append_left (by omega)]
  · rfl

/-- One more push takes the block to the next of the three stages or keeps it where it is. -/
theorem firstBlock_push (sample : Word32) (hs : FirstBlock c done s) :
    ∃ t, exec (.push sample) (onPort .producer s) = .next t ∧ FirstBlock c (done ++ [sample]) t := by
  have hissued : FirstBlock c done (onPort .producer s) :=
    ⟨⟨hs.runs.cfg, hs.runs.err, hs.runs.idx⟩, hs.filling, hs.transferred⟩
  obtain ⟨t, hexec, hruns⟩ := exec_push_runsAt sample hissued.runs rfl (cursorAfter_le c _)
  have hlength : (done ++ [sample]).length = done.length + 1 := by simp
  refine ⟨t, hexec, ?_, fun hle => ?_, fun hlt => ?_⟩
  · rwa [hlength, cursorAfter_succ_eq_step]
  · exact firstBlock_push_of_slot hissued rfl (by omega) hexec
  · obtain heq | hgt := Nat.eq_or_lt_of_le (show c.N ≤ done.length by omega)
    · exact firstBlock_push_of_full hissued rfl heq.symm hexec
    · exact firstBlock_push_of_ready hissued hgt hexec

/-- A run of pushes takes the block through the stages. -/
theorem issue_pushes_firstBlock (rest : List Word32) (hs : FirstBlock c done s) :
    ∃ t, Claims.issue (rest.map (fun w => (Port.producer, Instr.push w))) s = some t ∧
      FirstBlock c (done ++ rest) t := by
  induction rest generalizing done s with
  | nil => exact ⟨s, rfl, by rwa [List.append_nil]⟩
  | cons sample rest ih =>
    obtain ⟨u, hexec, hu⟩ := firstBlock_push sample hs
    obtain ⟨t, hissue, ht⟩ := ih hu
    refine ⟨t, (issue_cons hexec _).trans hissue, ?_⟩
    rwa [List.append_assoc, List.singleton_append] at ht

end FirstBlock

/-- Settles O21: after more than `N` pushes the run has reached the last stage. -/
theorem firstBlockWaitsForTheTick : Obligations.FirstBlockWaitsForTheTick := by
  intro s samples hidx hready herr hlength
  obtain ⟨t, hissue, ht⟩ := issue_pushes_firstBlock samples (firstBlock_nil hidx hready herr)
  obtain ⟨hready', htbuf⟩ := ht.transferred hlength
  refine ⟨t, hissue, hready', ht.runs.err, fun j hj => ?_, fun j hlo hhi => ?_⟩
  · rw [htbuf j (by omega), if_pos hj, List.nil_append]
  · rw [htbuf j hhi, if_neg hlo.not_gt]

end Sys2Proof.Machine

/-! PROOFS. Ticks on a set flag: what the ready path leaves, and that on a finite block an engine other than the stub
leaves magnitudes (44_tick.md R222, 41_transform.md R161). -/

namespace Sys2Proof.Machine

/-- A tick paints exactly the pixels of the surface (44_tick.md R222). -/
theorem isSome_tickReady_surf_iff (s : State) (j : Nat) :
    (cellAt (tickReady s).mem.surf j).isSome = true ↔ j < s.cfg.W * s.cfg.H := by
  rw [tickReady_surf, cellAt_fillCells]
  split
  · next hj => simpa using hj
  · next hj => simpa using hj

/-- Settles O23: the tick takes the ready path. -/
theorem tickReadyTransformsAndConsumes : Obligations.TickReadyTransformsAndConsumes := fun s hport herr hready =>
  ⟨tickReady s, exec_tick_of_ready hport herr hready, rfl, rfl, fun _ => cellAt_fillCells _ _ _,
    isSome_tickReady_surf_iff s, rfl, rfl, rfl, rfl, rfl, answered_nil rfl rfl rfl rfl rfl⟩

/-- A magnitude is a word up to that of `+infinity`: the sign bit is 0 and the word is no NaN (00_scope.md R19). -/
theorem toNat_le_of_floatIsMagnitude {m : Word32} (h : floatIsMagnitude m = true) : m.toNat ≤ infinityPattern := by
  obtain ⟨hsign, hnan⟩ : floatSign m = false ∧ floatIsNaN m = false := by simpa [floatIsMagnitude] using h
  have hbit := (floatSign_eq_false_iff m).1 hsign
  have hnumber := mt (floatIsNaN_iff m).2 (by simp [hnan])
  rw [infinityPattern]
  omega

/-- The search for a pattern stays at `+infinity` or below. -/
theorem patternSearch_le (above : Nat → Bool) (bits : Nat) {acc : Nat} (hacc : acc ≤ infinityPattern) :
    patternSearch above bits acc ≤ infinityPattern := by
  induction bits generalizing acc with
  | zero => exact hacc
  | succ bits ih =>
    rw [patternSearch]
    refine ih ?_
    split
    · next htry => exact of_decide_eq_true ((Bool.and_eq_true _ _).mp htry).1
    · exact hacc

theorem nearestPattern_le (twiceAgainst : Nat → Ordering) : nearestPattern twiceAgainst ≤ infinityPattern :=
  patternSearch_le _ 31 (Nat.zero_le _)

/-- Every output word of `T_DFT` is a magnitude (41_transform.md R164). -/
theorem dftWord_le (e : Nat) (v : List Word32) (k : Nat) : (dftWord e v k).toNat ≤ infinityPattern := by
  rw [dftWord]
  split
  · rw [BitVec.toNat_ofNat]
    exact (Nat.mod_le _ _).trans (nearestPattern_le _)
  · exact Nat.zero_le _

/-- On a finite block every engine but the stub gives magnitudes in the first `N` words (R161(b)). -/
theorem finiteTransformWord_le {c : Config} (hengine : c.engine ≠ .testIdentity) (v : List Word32) {k : Nat}
    (hk : k < c.N) : (finiteTransformWord c v k).toNat ≤ infinityPattern := by
  rw [finiteTransformWord]
  cases hcase : c.engine with
  | library =>
    cases hmagnitude : floatIsMagnitude (Config.engineWord c.N v k) with
    | true => simpa [hmagnitude] using toNat_le_of_floatIsMagnitude hmagnitude
    | false => simp [hmagnitude, hk]
  | referenceDft => exact dftWord_le _ v k
  | testIdentity => exact absurd hcase hengine

/-- Settles O27: the words are those of the engine on a finite block. -/
theorem tickLeavesMagnitudes : Obligations.TickLeavesMagnitudes := by
  intro s hport herr hready hengine hfinite
  refine ⟨tickReady s, exec_tick_of_ready hport herr hready, fun k hk => ?_⟩
  refine ⟨_, cellAt_tickReady_tbuf s (by omega), ?_⟩
  rw [transformWord_of_finite (tbufWords_all_finite hfinite)]
  exact finiteTransformWord_le hengine _ hk

end Sys2Proof.Machine

/-! PROOFS. The reads and `NOP`: each answers its words and leaves the block (45_readout.md R240 to R245); and port P,
which accepts every command offered (70_reset_and_hazards.md R306). -/

namespace Sys2Proof.Machine

/-- A command that answers words, and does nothing else, leaves the block and answers them. -/
theorem exec_answers {i : Instr} {s : State} {ws : List Word32} (h : exec i s = .next (respond ws s)) :
    exec i s = .next (respond ws s) ∧ s.sameBlock (respond ws s) ∧ s.answered (respond ws s) ws :=
  ⟨h, respond_sameBlock ws s, respond_answered ws s⟩

/-- A read of a written pixel gives the pixel (20_memory.md R71). -/
theorem readSurf_of_written {s : State} {j : Nat} {q : Pixel} (h : cellAt s.mem.surf j = some q) :
    readSurf s j = q := by
  rw [readSurf, h, Option.getD_some]

/-- A read of an unwritten pixel gives the free value of the draw (45_readout.md R247). -/
theorem readSurf_of_unwritten {s : State} {j : Nat} (h : cellAt s.mem.surf j = none) :
    readSurf s j = Config.freePixel s.draws j := by
  rw [readSurf, h, Option.getD_none]

/-- A read of an unwritten entry gives the free value of the draw (10_state.md R49). -/
theorem readTbuf_of_unwritten {s : State} {j : Nat} (h : cellAt s.mem.tbuf j = none) :
    readTbuf s j = Config.freeWord s.draws j := by
  rw [readTbuf, h, Option.getD_none]

/-- A pixel is answered in the low 24 bits, with zeros above (R240). -/
theorem pixelWord_eq_append (p : Pixel) : pixelWord p = (0 : BitVec 8) ++ p :=
  BitVec.setWidth_eq_append (by decide)

/-- Settles O30: the pixel answered is the one read at its linear index. -/
theorem rdPixelAnswersThePixel : Obligations.RdPixelAnswersThePixel := by
  intro s x y hport herr hx hy
  have hwf : (Instr.rdPixel x y).wellFormed s.port s.cfg = true := by
    rw [hport]; simp [Instr.wellFormed, Instr.opcode, Opcode.ports, Instr.inRange, hx, hy]
  obtain ⟨hexec, hblock, hanswered⟩ := exec_answers (exec_of_runs hwf (.inl herr))
  exact ⟨_, _, hexec, hblock, pixelWord_eq_append _ ▸ hanswered, fun _ => readSurf_of_written, readSurf_of_unwritten⟩

/-- Word `y*W + x` of the whole surface is the pixel `(x, y)` (R241). -/
theorem surfaceWords_pixel (s : State) {x y : Nat} (hx : x < s.cfg.W) (hy : y < s.cfg.H) :
    (surfaceWords s)[y * s.cfg.W + x]? = some ((0 : BitVec 8) ++ readSurf s (y * s.cfg.W + x)) := by
  have hindex : y * s.cfg.W + x < s.cfg.W * s.cfg.H := pixelIndex_lt s.cfg hx hy
  rw [← pixelWord_eq_append, surfaceWords, List.getElem?_map, List.getElem?_range hindex, Option.map_some]

/-- Settles O31: the words answered are the surface's, read in the one state. -/
theorem rdSurfaceAnswersOneFrame : Obligations.RdSurfaceAnswersOneFrame := by
  intro s hport herr
  have hwf : Instr.rdSurface.wellFormed s.port s.cfg = true := by rw [hport]; rfl
  obtain ⟨hexec, hblock, hanswered⟩ := exec_answers (exec_of_runs hwf (.inl herr))
  exact ⟨_, _, hexec, hblock, hanswered, length_surfaceWords s, fun x y hx hy =>
    ⟨_, surfaceWords_pixel s hx hy, fun _ => readSurf_of_written, readSurf_of_unwritten⟩⟩

/-- Settles O32: the word answered is the entry read. -/
theorem rdTbufAnswersTheEntry : Obligations.RdTbufAnswersTheEntry := by
  intro s tidx hport herr hidx
  have hwf : (Instr.rdTbuf tidx).wellFormed s.port s.cfg = true := by
    rw [hport]; simp [Instr.wellFormed, Instr.opcode, Opcode.ports, Instr.inRange, hidx]
  obtain ⟨hexec, hblock, hanswered⟩ := exec_answers (exec_of_runs hwf (.inl herr))
  exact ⟨_, _, hexec, hblock, hanswered, fun _ => readTbuf_of_written, readTbuf_of_unwritten⟩

section StatusLayout

variable (idx : BitVec 16) (reserved : BitVec 8) (code : BitVec 4) (zero err rendered ready : BitVec 1)

/-- The fields of a word with the STATUS layout (10_state.md R41). -/
theorem status_fields :
    let v : BitVec (16 + 8 + 4 + 1 + 1 + 1 + 1) := idx ++ reserved ++ code ++ zero ++ err ++ rendered ++ ready
    v.extractLsb' 16 16 = idx ∧ v.extractLsb' 8 8 = reserved ∧ v.extractLsb' 4 4 = code := by
  intro v
  refine ⟨?_, ?_, ?_⟩
  · iterate 5 rw [BitVec.extractLsb'_append_eq_of_le (by decide)]
    exact BitVec.extractLsb'_append_eq_left
  · iterate 5 rw [BitVec.extractLsb'_append_eq_of_le (by decide)]
    exact BitVec.extractLsb'_append_eq_right
  · iterate 4 rw [BitVec.extractLsb'_append_eq_of_le (by decide)]
    exact BitVec.extractLsb'_append_eq_right

/-- The single bits of a word with the STATUS layout (10_state.md R41). -/
theorem status_bits :
    let v : BitVec (16 + 8 + 4 + 1 + 1 + 1 + 1) := idx ++ reserved ++ code ++ zero ++ err ++ rendered ++ ready
    v.getLsbD 3 = zero.getLsbD 0 ∧ v.getLsbD 2 = err.getLsbD 0 ∧ v.getLsbD 1 = rendered.getLsbD 0 ∧
      v.getLsbD 0 = ready.getLsbD 0 := by
  simp only [BitVec.getLsbD_append]
  simp

end StatusLayout

/-- Settles O33: the word answered is the STATUS word, on every port, halted or not. -/
theorem rdStatusAnswersTheStatusWord : Obligations.RdStatusAnswersTheStatusWord := by
  intro s
  have hwf : Instr.rdStatus.wellFormed s.port s.cfg = true := by cases s.port <;> rfl
  obtain ⟨hexec, hblock, hanswered⟩ := exec_answers (exec_of_runs hwf (.inr rfl))
  obtain ⟨hidx, hreserved, hecode⟩ :=
    status_fields s.idx 0 s.ecode 0 (.ofBool s.err) (.ofBool s.rendered) (.ofBool s.ready)
  obtain ⟨hzero, herr, hrendered, hready⟩ :=
    status_bits s.idx 0 s.ecode 0 (.ofBool s.err) (.ofBool s.rendered) (.ofBool s.ready)
  refine ⟨_, _, hexec, hblock, hanswered, hidx, hreserved, hecode, hzero, ?_, ?_, ?_⟩
  · exact herr.trans (by simp)
  · exact hrendered.trans (by simp)
  · exact hready.trans (by simp)

theorem height_le (c : Config) : c.H ≤ 65536 := c.heightM1.isLt

theorem divisor_le (c : Config) : c.B ≤ 4294967295 := c.divisorM1.isLt

/-- Settles O34: every parameter fits its response word. -/
theorem rdConfigAnswersTheParameter : Obligations.RdConfigAnswersTheParameter := by
  intro s sel hsel
  have hwf : (Instr.rdConfig sel).wellFormed s.port s.cfg = true := by
    cases s.port <;> simp [Instr.wellFormed, Instr.opcode, Opcode.ports, Instr.inRange, hsel]
  obtain ⟨hexec, hblock, hanswered⟩ := exec_answers (exec_of_runs hwf (.inr rfl))
  have hword {n : Nat} (hn : n ≤ 4294967295) : (BitVec.ofNat 32 n).toNat = n :=
    Nat.mod_eq_of_lt (Nat.lt_succ_of_le hn)
  refine ⟨_, _, hexec, hblock, hanswered, ?_, ?_, ?_, ?_, ?_, ?_⟩ <;> rintro rfl
  · exact hword ((blockSize_le s.cfg).trans (by decide))
  · exact hword ((width_le s.cfg).trans (by decide))
  · exact hword ((height_le s.cfg).trans (by decide))
  · exact hword (divisor_le s.cfg)
  · cases hmode : s.cfg.xMode <;> simp [configWord, Config.xModeCode, hmode]
  · rfl

/-- Settles O35: `NOP` is well formed on every port and runs halted too. -/
theorem nopChangesNothing : Obligations.NopChangesNothing := by
  intro s
  have hwf : Instr.nop.wellFormed s.port s.cfg = true := by cases s.port <;> rfl
  exact exec_of_runs hwf (.inr rfl)

/-- Port P withholds nothing (R306). -/
theorem withholds_producer (a : Activity) (stall : Bool) (s : State) : withholds a stall .producer s = false := by
  simp [withholds, mustWithhold, mayWithhold]

/-- Settles O42: with no reset asserted port P is open, and it withholds nothing. -/
theorem portPNeverStalls : Obligations.PortPNeverStalls := by
  intro s a stall w hrst
  have hopen : portOpen .producer s = true := by rw [portOpen_producer, hrst]; rfl
  exact offerCommand_frame_of_not_withheld w (withholds_producer a stall s) hopen

end Sys2Proof.Machine

/-! PROOFS. The paint loop: a loop of single writes of one pixel value paints the union of what its rounds paint, so the
loop of 42_render.md R180 leaves the frame of R186 (log entry 12). -/

namespace Sys2Proof.Machine

/-- `f` writes `v` at exactly the indices in `S`, and keeps rising indices rising. -/
structure Paints (v : Pixel) (S : Nat → Prop) (f : Cells 24 → Cells 24) : Prop where
  rising : ∀ m, cellsRising m = true → cellsRising (f m) = true
  inside : ∀ m j, S j → cellAt (f m) j = some v
  outside : ∀ m j, ¬ S j → cellAt (f m) j = cellAt m j

section Paints

variable {v : Pixel} {S : Nat → Prop}

theorem paints_congr {T : Nat → Prop} {f : Cells 24 → Cells 24} (h : Paints v S f) (hST : ∀ j, S j ↔ T j) :
    Paints v T f :=
  (funext fun j => propext (hST j) : S = T) ▸ h

theorem paints_nothing (hS : ∀ j, ¬ S j) : Paints v S (fun m => m) where
  rising _ := id
  inside _ j hj := absurd hj (hS j)
  outside _ _ _ := rfl

theorem paints_cellWrite (v : Pixel) (k : Nat) : Paints v (· = k) (fun m => cellWrite m k v) where
  rising m := cellWrite_rising m k v
  inside m j hj := by rw [cellAt_cellWrite, if_pos hj]
  outside m j hj := by rw [cellAt_cellWrite, if_neg hj]

/-- A write under a condition that does not look at the cells paints under the condition. -/
theorem paints_ite {f : Cells 24 → Cells 24} (q : Prop) [Decidable q] (h : Paints v S f) :
    Paints v (fun j => q ∧ S j) (fun m => if q then f m else m) := by
  by_cases hq : q
  · simpa only [hq, if_true, true_and] using h
  · simpa only [hq, if_false, false_and] using paints_nothing (v := v) (fun _ => not_false)

/-- A loop paints the union of what its rounds paint. -/
theorem paints_foldl {α : Type} (l : List α) {S : α → Nat → Prop} {g : Cells 24 → α → Cells 24}
    (h : ∀ a, Paints v (S a) (fun m => g m a)) : Paints v (fun j => ∃ a ∈ l, S a j) (fun m => l.foldl g m) := by
  induction l with
  | nil => exact paints_nothing (by simp)
  | cons a l ih =>
    refine ⟨fun m hm => ih.rising _ ((h a).rising m hm), fun m j hj => ?_, fun m j hj => ?_⟩
    · by_cases hrest : ∃ b ∈ l, S b j
      · exact ih.inside _ j hrest
      · have hfirst : S a j := by simpa [hrest] using hj
        exact (ih.outside _ j hrest).trans ((h a).inside m j hfirst)
    · obtain ⟨hfirst, hrest⟩ : ¬ S a j ∧ ¬ ∃ b ∈ l, S b j := by simpa using hj
      exact (ih.outside _ j hrest).trans ((h a).outside m j hfirst)

end Paints

/-- A linear index of the surface is that of its column and row (20_memory.md R70). -/
theorem pixelIndex_mod_div (c : Config) (j : Nat) : pixelIndex c (j % c.W) (j / c.W) = j := by
  rw [pixelIndex, Nat.mul_comm, Nat.div_add_mod]

/-- A linear index is on the surface where its row is. -/
theorem lt_area_iff (c : Config) (j : Nat) : j < c.W * c.H ↔ j / c.W < c.H := by
  rw [Nat.div_lt_iff_lt_mul (width_pos c), Nat.mul_comm]

/-- The first part of the loop paints the whole surface black (R180). -/
theorem paints_paintBackground (c : Config) : Paints black (· < c.W * c.H) (paintBackground c) := by
  refine paints_congr (paints_foldl (List.range c.W) fun x => paints_foldl (List.range c.H) fun y =>
    paints_cellWrite black (pixelIndex c x y)) fun j => ⟨?_, fun hj => ?_⟩
  · rintro ⟨x, hx, y, hy, rfl⟩
    exact pixelIndex_lt c (List.mem_range.1 hx) (List.mem_range.1 hy)
  · exact ⟨j % c.W, List.mem_range.2 (Nat.mod_lt j (width_pos c)), j / c.W,
      List.mem_range.2 ((lt_area_iff c j).1 hj), (pixelIndex_mod_div c j).symm⟩

/-- A drawn bin's loop visits exactly the pixels the bin colours (R180, R185). -/
theorem bin_visits_iff {c : Config} {i : Nat} {m : Word32} (hx : xPos c i < c.W) (hw : binWidth c i m ≠ 0) (j : Nat) :
    (∃ dx ∈ List.range (binWidth c i m), ∃ py ∈ List.range c.H,
      (py = 0 ∨ py = c.H - 1 ∨ xPos c i + dx = xPos c i ∨ xPos c i + dx = xPos c i + binWidth c i m - 1) ∧
        j = pixelIndex c (xPos c i + dx) py) ↔
    binColours c i m (j % c.W) (j / c.W) = true := by
  have hclamp : binWidth c i m ≤ c.W - xPos c i := Nat.min_le_right _ _
  rw [binColours_iff]
  constructor
  · rintro ⟨dx, hdx, py, hpy, hedge, rfl⟩
    rw [List.mem_range] at hdx hpy
    rw [pixelIndex_mod c py (by omega), pixelIndex_div c py (by omega)]
    exact ⟨hx, by omega, by omega, by omega, hpy, hedge⟩
  · rintro ⟨-, -, hleft, hright, hpy, hedge⟩
    have hcolumn : xPos c i + (j % c.W - xPos c i) = j % c.W := by omega
    refine ⟨j % c.W - xPos c i, List.mem_range.2 (by omega), j / c.W, List.mem_range.2 hpy, ?_, ?_⟩
    · rwa [hcolumn]
    · rw [hcolumn, pixelIndex_mod_div]

/-- A bin off the screen or without a width is skipped (R180, R187). -/
theorem paintBin_of_blank {c : Config} {spectrum : Nat → Word32} {i : Nat}
    (h : c.W ≤ xPos c i ∨ binWidth c i (spectrum i) = 0) (m : Cells 24) : paintBin c spectrum m i = m := by
  obtain hoff | hwidth := h
  · exact if_pos hoff
  · rw [binWidth] at hwidth
    simp [paintBin, hwidth]

/-- Any other bin is painted by the two loops over its clamped rectangle (R180, R184). -/
theorem paintBin_of_drawn {c : Config} {spectrum : Nat → Word32} {i : Nat} (hx : xPos c i < c.W)
    (hwidth : binWidth c i (spectrum i) ≠ 0) (m : Cells 24) :
    paintBin c spectrum m i =
      (List.range (binWidth c i (spectrum i))).foldl
        (fun m dx => (List.range c.H).foldl
          (fun m py =>
            if py = 0 || py = c.H - 1 || xPos c i + dx = xPos c i ||
                xPos c i + dx = xPos c i + binWidth c i (spectrum i) - 1 then
              cellWrite m (pixelIndex c (xPos c i + dx) py) red
            else m) m) m :=
  (if_neg hx.not_ge).trans (if_neg hwidth)

/-- One bin of the loop paints the pixels it colours red (R180, R184 to R187). -/
theorem paints_paintBin (c : Config) (spectrum : Nat → Word32) (i : Nat) :
    Paints red (fun j => binColours c i (spectrum i) (j % c.W) (j / c.W) = true)
      (fun m => paintBin c spectrum m i) := by
  by_cases hblank : c.W ≤ xPos c i ∨ binWidth c i (spectrum i) = 0
  · rw [funext (paintBin_of_blank hblank)]
    refine paints_nothing fun j hj => ?_
    obtain ⟨hx, hwidth, -⟩ := (binColours_iff ..).1 hj
    omega
  · obtain ⟨hx, hwidth⟩ := not_or.1 hblank
    rw [funext (paintBin_of_drawn (not_le.1 hx) hwidth)]
    refine paints_congr (paints_foldl _ fun dx => paints_foldl _ fun py =>
      paints_ite _ (paints_cellWrite red (pixelIndex c (xPos c i + dx) py))) fun j => ?_
    simpa only [Bool.or_eq_true, decide_eq_true_eq, or_assoc] using bin_visits_iff (not_le.1 hx) hwidth j

/-- The rest of the loop paints the pixels that some bin colours red (R180). -/
theorem paints_bins (c : Config) (spectrum : Nat → Word32) :
    Paints red (fun j => ∃ i ∈ List.range c.N, binColours c i (spectrum i) (j % c.W) (j / c.W) = true)
      (fun m => (List.range c.N).foldl (paintBin c spectrum) m) :=
  paints_foldl _ (paints_paintBin c spectrum)

theorem paintLoop_rising {c : Config} {spectrum : Nat → Word32} {surf : Cells 24} (h : cellsRising surf = true) :
    cellsRising (paintLoop c spectrum surf) = true :=
  (paints_bins c spectrum).rising _ ((paints_paintBackground c).rising surf h)

/-- Each pixel the loop leaves on the surface is the closed form's (R186). -/
theorem cellAt_paintLoop {c : Config} {j : Nat} (hj : j < c.W * c.H) (spectrum : Nat → Word32) (surf : Cells 24) :
    cellAt (paintLoop c spectrum surf) j = some (framePixel c spectrum (j % c.W) (j / c.W)) := by
  obtain ⟨hred, hblack⟩ := framePixel_eq c spectrum (j % c.W) (j / c.W)
  simp only [← List.mem_range] at hred hblack
  by_cases hcoloured : ∃ i ∈ List.range c.N, binColours c i (spectrum i) (j % c.W) (j / c.W) = true
  · rw [hred hcoloured]
    exact (paints_bins c spectrum).inside _ j hcoloured
  · rw [hblack hcoloured]
    exact ((paints_bins c spectrum).outside _ j hcoloured).trans ((paints_paintBackground c).inside surf j hj)

/-- The loop writes nothing beyond the surface. -/
theorem cellAt_paintLoop_beyond {c : Config} {j : Nat} (hj : ¬ j < c.W * c.H) (spectrum : Nat → Word32)
    (surf : Cells 24) : cellAt (paintLoop c spectrum surf) j = cellAt surf j := by
  have huncoloured : ¬ ∃ i ∈ List.range c.N, binColours c i (spectrum i) (j % c.W) (j / c.W) = true := by
    rintro ⟨i, -, hcolours⟩
    obtain ⟨-, -, -, -, hrow, -⟩ := (binColours_iff ..).1 hcolours
    exact hj ((lt_area_iff c j).2 hrow)
  exact ((paints_bins c spectrum).outside _ j huncoloured).trans ((paints_paintBackground c).outside surf j hj)

/-- Canonical cells hold nothing beyond their space. -/
theorem cellAt_none_of_below {w n : Nat} {m : Cells w} (h : cellsBelow n m = true) {j : Nat} (hj : ¬ j < n) :
    cellAt m j = none := by
  induction m with
  | nil => rfl
  | cons e rest ih =>
    obtain ⟨he, hrest⟩ : e.1 < n ∧ cellsBelow n rest = true := by simpa [cellsBelow] using h
    rw [cellAt, if_neg (by omega), ih hrest]

/-- Settles O25: both surfaces are canonical, on the surface both hold the frame's pixels, and beyond it nothing. -/
theorem renderLoopPaintsClosedForm : Obligations.RenderLoopPaintsClosedForm := by
  intro s hwf
  obtain ⟨-, -, hrising, hbelow⟩ := (Memory.wf_iff s.cfg s.mem).1 hwf
  rw [renderFrame_mem]
  refine cells_ext _ _ (paintLoop_rising hrising) (fillCells_rising _ _) fun j => ?_
  rw [cellAt_fillCells]
  by_cases hj : j < s.cfg.W * s.cfg.H
  · rw [if_pos hj, cellAt_paintLoop hj]
  · rw [if_neg hj, cellAt_paintLoop_beyond hj, cellAt_none_of_below hbelow hj]

end Sys2Proof.Machine
